-- ==== Sys2Proof/Word.lean ====
section
/-! DEFINITION. The bit-vector words of the part and the index types of its numbered tables (spec/00_scope.md, Conventions; R1, R26, R82, R113, R154). -/

namespace Sys2Proof

/-- One byte of the control link or of the wave store (R176, R107). -/
abbrev Byte := BitVec 8

/-- A two-byte field of the link, least significant byte first (R194). -/
abbrev Half := BitVec 16

/-- A four-byte field of the link (R194). -/
abbrev Long := BitVec 32

/-- A raw 10-bit sensor sample (R2). -/
abbrev Sample := BitVec 10

/-- An action-clock time: a 24-bit count of microseconds that wraps (00_scope.md, Time). -/
abbrev Stamp := BitVec 24

/-- A performance-clock time: a 32-bit count of milliseconds that wraps (00_scope.md, Time). -/
abbrev Time := BitVec 32

/-- A key, 0 to 87 (00_scope.md, Keys). -/
abbrev Key := Fin 88

/-- A voice number, 0 to 95 (R82). -/
abbrev VoiceIx := Fin 96

end Sys2Proof
end

