-- ==== Sys2Proof/Config.lean ====
section
/-! DEFINITION. The part's fixed numbers, each with the rule that gives it, and the values the manual leaves open (constants with no body). -/

namespace Sys2Proof.Config

/-- Part code returned by GET IDENTITY (R191). -/
def partCode : Nat := 2208
/-- Silicon revision of the part the manual describes (R191). -/
def siliconRevision : Nat := 1
/-- Link protocol version (R191). -/
def protocolVersion : Nat := 1

/-- Agreeing samples that confirm a change of a gate, of the sostenuto or of an end switch (R4, R46, R57). -/
def agreeing : Nat := 3
/-- Settle timer, in µs (R18). -/
def settleTime : Nat := 20000
/-- Longest gate interval of a strike, in µs (R10). -/
def maxInterval : Nat := 40000
/-- Age of a g2_stamp at which its stale mark is set, in µs (R7). -/
def staleAge : Nat := 40003
/-- Age of a strike_stamp at which its guard mark is set, in µs (R12). -/
def guardAge : Nat := 20002
/-- Rebound guard while the rail state is CLOSED, in µs (R12). -/
def guardClosed : Nat := 20000
/-- Rebound guard in every other rail state, in µs (R12). -/
def guardOther : Nat := 8000
/-- Scans collected by rest learning (R21). -/
def learnScans : Nat := 256
/-- Largest spread of a settled sensor (R21). -/
def settledSpread : Nat := 40
/-- Inter-byte timer, in µs (R177). -/
def interByteTime : Nat := 1000
/-- Homing limit, in ms (R60). -/
def homingLimit : Nat := 3000
/-- Homing duty, in percent (R56). -/
def homingDuty : Nat := 50
/-- Collisions after which a move is given up (R67). -/
def maxAttempts : Nat := 3
/-- Bytes of the wave store's address range (R107, R108). -/
def storeBytes : Nat := 67108864
/-- Most entries of the zone table (R109). -/
def maxZones : Nat := 512
/-- Records of a record block (R136). -/
def blockRecords : Nat := 48
/-- Largest value of a counter (00_scope.md, Counters). -/
def counterMax : Nat := 65535
/-- Slots of the passage store (R151). -/
def passageSlots : Nat := 8192
/-- Largest magnitude on a bus or an output channel, 2^23 - 1 (R128, R129). -/
def fullScale : Int := 8388607

/-- FREE VALUE (notes/assumptions/1.md). The segment tempo from which PLAY START computes the first period of the
tempo counter while no working copy exists: R158 computes every reload from the working copy, R160 starts the counter
before the first load, and no rule says what is used when there is no copy. The argument is State's counter of draws. -/
opaque tempoWithoutCopy : Nat → Nat

/-- FREE VALUE (notes/assumptions/2.md). The byte that GET PLAY STATUS gives for repetitions left of ENDLESS: R150 and
R174 give the item and R194 gives no code for ENDLESS. -/
opaque endlessCode : Byte

end Sys2Proof.Config
end

