-- ==== Sys2Proof/Syntax.lean ====
section
/-! DEFINITION. The commands of the part: one constructor of Instr for each row of spec/opcode_table.json, with the operands the rules give it, and Request, the requests of the control link as a checked frame carries them (11.3). -/

namespace Sys2Proof

/-- The two optical gates of a hammer: G1 the upper, G2 the lower (1.3). -/
inductive Gate where
  | g1
  | g2
  deriving DecidableEq, Repr

/-- The source of a note or pedal event (00_scope.md, Sources). -/
inductive Source where
  | live
  | playback
  deriving DecidableEq, Repr

/-- An end of the rail's travel (4.1): OPEN the acoustic, CLOSED the silent position. -/
inductive RailEnd where
  | opened
  | closed
  deriving DecidableEq, Repr

/-- The levels on the input pins that a part reset takes as its filtered levels (R1, R57): bit k of g1 or g2 is set when
that gate of key k reads ABOVE; a switch is true when it is ACTIVE. -/
structure Pins where
  g1 : BitVec 88
  g2 : BitVec 88
  endOpen : Bool
  endClosed : Bool
  deriving DecidableEq, Repr

/-- What one scan reads at one instant (R2, R57): the raw samples of the 88 key sensors and the three pedal sensors, and
the two end switches (true for ACTIVE). R51 lets the key phase changes and the pedal work of one scan be taken in either
order: pedalsFirst says which order this scan takes (notes/assumptions/9.md). -/
structure ScanSamples where
  keys : Vector Sample 88
  damper : Sample
  sostenuto : Sample
  unaCorda : Sample
  endOpen : Bool
  endClosed : Bool
  pedalsFirst : Bool
  deriving DecidableEq, Repr

/-- A regulation entry as its 12 bytes carry it (11.6). -/
structure RegFields where
  rest : Half
  touchPoint : Half
  rearmPoint : Half
  releasePoint : Half
  gapScale : Half
  trim : Byte
  enabled : Byte
  deriving DecidableEq, Repr

/-- A point of the touch curve as its 3 bytes carry it (11.6). -/
structure CurvePoint where
  speed : Half
  level : Byte
  deriving DecidableEq, Repr

/-- A segment entry as its 9 bytes carry it (11.6). -/
structure SegFields where
  start : Half
  count : Half
  repeats : Byte
  tempo : Byte
  hands : Byte
  wait : Byte
  next : Byte
  deriving DecidableEq, Repr

/-- The 4-byte event record of recordings and passages (11.5, R196): kind; key, pedal, segment or low value byte; value,
pass or high value byte; delta. -/
structure Record where
  kind : Byte
  key : Byte
  value : Byte
  delta : Byte
  deriving DecidableEq, Repr

/-- A request of the control link, as a checked frame of the right length carries it (11.3). -/
inductive Request where
  | getIdentity
  | getStatus
  | resetPart
  | readNotices
  | clearNotices (notices : Half)
  | setNoticeMask (notices : Half)
  | startOperation (code : Byte)
  | abortOperation
  | getOperationResult
  | getKeyState (first count : Byte)
  | getKeyCounters (first count : Byte)
  | setRegulation (first count : Byte) (entries : List RegFields)
  | getRegulation (first count : Byte)
  | setTouchCurve (points : Vector CurvePoint 9)
  | getTouchCurve
  | getPedalState
  | setPedalMap (contact full : Half)
  | setRailMode (code : Byte)
  | clearRailFault
  | setRailDrive (duty : Byte)
  | getRailState
  | setSoundOptions (option : Byte)
  | getVoiceState (first count : Byte)
  | readWaveStore (address : Long) (count : Byte)
  | getZone (first : Half) (count : Byte)
  | setOutputGain (channel live playback : Byte)
  | setRoute (slot channel side : Byte)
  | getOutput
  | recordStart (mask : Byte)
  | recordStop
  | recordFlush
  | readRecordBlock
  | writePassage (start : Half) (count : Byte) (records : List Record)
  | readPassage (start : Half) (count : Byte)
  | writeSegment (number : Byte) (entry : SegFields)
  | readSegment (number : Byte)
  | setSplit (key : Byte)
  | setMasterTempo (tempo : Byte)
  | playStart (segment : Byte)
  | playPause
  | playResume
  | playStop
  | playReset
  | getPlayStatus
  deriving DecidableEq, Repr

/-- A command: one constructor for each row of spec/opcode_table.json. The rows that name a request are that request
arriving as a checked frame; the others are the part's events. -/
inductive Instr where
  | resetNLow
  | resetNHigh (pins : Pins)
  | receiveByte (byte : Byte) (stopHigh : Bool)
  | interByteTimerExpiry
  | replySent (pins : Pins)
  | unknownKind (kind : Byte) (payload : List Byte)
  | getIdentity
  | getStatus
  | resetPart
  | readNotices
  | clearNotices (notices : Half)
  | setNoticeMask (notices : Half)
  | loadZones
  | learnRest
  | railCalibrate
  | startup
  | abortOperation
  | getOperationResult
  | getKeyState (first count : Byte)
  | getKeyCounters (first count : Byte)
  | setRegulation (first count : Byte) (entries : List RegFields)
  | getRegulation (first count : Byte)
  | setTouchCurve (points : Vector CurvePoint 9)
  | getTouchCurve
  | getPedalState
  | setPedalMap (contact full : Half)
  | setRailMode (code : Byte)
  | clearRailFault
  | setRailDrive (duty : Byte)
  | getRailState
  | setSoundOptions (option : Byte)
  | getVoiceState (first count : Byte)
  | readWaveStore (address : Long) (count : Byte)
  | getZone (first : Half) (count : Byte)
  | setOutputGain (channel live playback : Byte)
  | setRoute (slot channel side : Byte)
  | getOutput
  | recordStart (mask : Byte)
  | recordStop
  | recordFlush
  | readRecordBlock
  | writePassage (start : Half) (count : Byte) (records : List Record)
  | readPassage (start : Half) (count : Byte)
  | writeSegment (number : Byte) (entry : SegFields)
  | readSegment (number : Byte)
  | setSplit (key : Byte)
  | setMasterTempo (tempo : Byte)
  | playStart (segment : Byte)
  | playPause
  | playResume
  | playStop
  | playReset
  | getPlayStatus
  | scan (samples : ScanSamples)
  | learnRestComplete
  | sostenutoConfirmed (sample : Sample)
  | gateCrossing (key : Key) (gate : Gate)
  | staleMarkSet (key : Key)
  | guardMarkSet (key : Key)
  | settleTimerExpiry
  | endSwitchConfirmed (switch : RailEnd)
  | railGuardAsserted
  | railGuardReleased
  | moveTimerExpiry
  | voiceStrike (source : Source) (key : Key) (level : Byte)
  | voiceRelease (source : Source) (key : Key) (level : Byte)
  | envelopeTick
  | audioFrame
  | fetchArrival (data : List Byte)
  | loadReadArrival (data : List Byte)
  | diagnosticReadArrival (data : List Byte)
  | playbackTick
  | gateSample (g1 g2 : BitVec 88)
  deriving DecidableEq, Repr

end Sys2Proof
end

