-- ==== Sys2Proof/Machine/State.lean ====
section
/-! DEFINITION. The state of the part, block by block (spec/00_scope.md, Functional Blocks), as plain data, and State.reset, the part right after a part reset. -/

namespace Sys2Proof.Machine

/-- Why the machine stops with a fault. No rule of the manual stops the part, so there is no fault: the type has no
constructor. -/
inductive Fault where
  deriving DecidableEq, Repr

/-- Why a command has no meaning. -/
inductive Refusal where
  /-- Raised by an arm of exec whose command has no meaning yet (safe: the run stops). No arm of this model raises it. -/
  | notModelled (mnemonic : String)
  deriving DecidableEq, Repr

/-! ### Action Scanner (01_action_sensing.md) -/

/-- The stroke state of a key (R1). -/
inductive Phase where
  | idle
  | travel
  | struck
  | rearmed
  deriving DecidableEq, Repr

/-- The hammer zone (R6). -/
inductive Zone where
  | low
  | mid
  | high
  deriving DecidableEq, Repr

/-- One gate's filter (R4): its filtered level and its count of agreeing samples. The count of 3 is the third agreeing
sample taken and its crossing not yet: the crossing is due. -/
structure GateFilter where
  above : Bool
  count : Nat
  deriving DecidableEq, Repr

/-- A g2_stamp with its two marks (R7). -/
structure G2Stamp where
  stamp : Stamp
  reachedHigh : Bool
  stale : Bool
  deriving DecidableEq, Repr

/-- A strike_stamp with its guard mark (R12). -/
structure StrikeStamp where
  stamp : Stamp
  guardMark : Bool
  deriving DecidableEq, Repr

/-- One key record (R1), with the filters of the key's two gates (R4). -/
structure KeyRecord where
  phase : Phase
  zone : Zone
  travel : Nat
  history : Vector Nat 5
  g1 : GateFilter
  g2 : GateFilter
  g2Stamp : Option G2Stamp
  strikeStamp : Option StrikeStamp
  prevStrikeStamp : Option Stamp
  lastLevel : Nat
  lastRelease : Nat
  strikes : Nat
  missed : Nat
  orphan : Nat
  rebound : Nat
  gateFault : Nat
  deriving DecidableEq, Repr

/-- What rest learning keeps of one sensor (R21). -/
structure SensorStats where
  sum : Nat
  least : Nat
  greatest : Nat
  deriving DecidableEq, Repr

/-- A rest learning in progress (R21): scans collected, and the 90 sensors, 0 to 87 by key, 88 damper, 89 una corda. -/
structure RestLearning where
  scans : Nat
  sensors : Vector SensorStats 90
  deriving DecidableEq, Repr

/-- The Action Scanner's state (R1, R17, R18, R20, R21). -/
structure Scanner where
  keys : Vector KeyRecord 88
  ready : Bool
  flightCount : Nat
  lastLanding : Option Stamp
  /-- the settle timer: absent when stopped, else the µs left; 0 is its expiry due -/
  settle : Option Nat
  quiet : Bool
  learning : Option RestLearning
  deriving DecidableEq, Repr

/-! ### Touch Unit (02_touch_measurement.md) -/

/-- One regulation entry (R26). -/
structure RegEntry where
  rest : Nat
  touchPoint : Nat
  rearmPoint : Nat
  releasePoint : Nat
  gapScale : Nat
  trim : Int
  enabled : Bool
  deriving DecidableEq, Repr

/-- One point of the touch curve (R33). -/
structure TouchPoint where
  speed : Nat
  level : Nat
  deriving DecidableEq, Repr

/-- The Touch Unit's state: the regulation table (R26), the entries in effect (R3, R28) and the touch curve (R33). -/
structure TouchUnit where
  table : Vector RegEntry 88
  inEffect : Vector RegEntry 88
  curve : Vector TouchPoint 9
  deriving DecidableEq, Repr

/-! ### Pedal Unit (03_pedals.md) -/

/-- The pedal map (R42). -/
structure PedalMap where
  contact : Nat
  full : Nat
  deriving DecidableEq, Repr

/-- The filter of the sostenuto (R46) or of an end switch (R57): its state, and its count of agreeing scans. The count of
3 is the third agreeing sample taken and its confirmation not yet: the confirmation is due. -/
structure ScanFilter where
  on : Bool
  count : Nat
  deriving DecidableEq, Repr

/-- The pedal values of one source (R42): lift, sostenuto, una corda value, and una corda depth u. -/
structure PedalValues where
  lift : Nat
  sostenuto : Bool
  unaCorda : Nat
  u : Nat
  deriving DecidableEq, Repr

/-- The Pedal Unit's state (R42). A map or a rest written between two scans is taken into effect at the next (R43), so
each is held as written and as in effect. -/
structure PedalUnit where
  damperRest : Nat
  unaCordaRest : Nat
  map : PedalMap
  damperRestInEffect : Nat
  unaCordaRestInEffect : Nat
  mapInEffect : PedalMap
  damperTravel : Nat
  unaCordaTravel : Nat
  filter : ScanFilter
  sostenutoRaw : Nat
  /-- a scan has been taken since the Scanner became READY: the live values follow the sensors (R43, R46) -/
  following : Bool
  live : PedalValues
  playback : PedalValues
  mergedLift : Nat
  mergedSostenuto : Bool
  /-- the latch set, in ascending key order -/
  latch : List Key
  refLift : Nat
  refSostenuto : Bool
  refUnaCorda : Nat
  deriving DecidableEq, Repr

/-! ### Rail Controller (04_hammer_stop_rail.md) -/

/-- Fault reasons (R55). -/
inductive FaultReason where
  | guard
  | travelTimeout
  | switchConflict
  | drift
  deriving DecidableEq, Repr

/-- Homing phases (R55). -/
inductive HomingPhase where
  | waiting
  | driving
  deriving DecidableEq, Repr

/-- Calibration phases (R55). -/
inductive CalPhase where
  | waitClose
  | closing
  | waitOpen
  | opening
  deriving DecidableEq, Repr

/-- Return kinds (R55). -/
inductive ReturnKind where
  | retry
  | calibration
  deriving DecidableEq, Repr

/-- The rail state (R55), each with the item it alone has: homing phase, return kind, calibration phase, fault reason. -/
inductive RailState where
  | homing (phase : HomingPhase)
  | opened
  | closed
  | waitQuiet
  | moving
  | returning (kind : ReturnKind)
  | calibrating (phase : CalPhase)
  | fault (reason : FaultReason)
  deriving DecidableEq, Repr

/-- The drive when it is ON (R55): its direction and its duty in percent. The pulse-width and direction outputs follow
it (R56). -/
structure Drive where
  toward : RailEnd
  duty : Nat
  deriving DecidableEq, Repr

/-- The Rail Controller's state (R55), the level of its RAIL_GUARD_N input (R58), and what a calibration measures (R74). -/
structure Rail where
  state : RailState
  target : RailEnd
  origin : Option RailEnd
  attempts : Nat
  /-- absent when OFF -/
  drive : Option Drive
  moveDuty : Nat
  travelDuty : Nat
  /-- absent when stopped, else the ms left; 0 is its expiry due -/
  moveTimer : Option Nat
  travelLimit : Nat
  closingTime : Option Nat
  openingTime : Option Nat
  switchOpen : ScanFilter
  switchClosed : ScanFilter
  /-- RAIL_GUARD_N is low: the guard is asserted -/
  guardLow : Bool
  /-- the start stamp of the calibration leg under way (R74) -/
  legStart : Time
  /-- the closing time measured in the calibration under way (R74) -/
  legClosing : Nat
  deriving DecidableEq, Repr

/-! ### Voice Engine (05_voice_engine.md) -/

/-- Voice states (R82). -/
inductive VoiceState where
  | free
  | priming
  | sounding
  | damping
  | fading
  deriving DecidableEq, Repr

/-- What held a voice at its latest hold test (R94). -/
inductive HoldCause where
  | source
  | latch
  | lift
  | none
  deriving DecidableEq, Repr

/-- One voice record (R82). -/
structure Voice where
  state : VoiceState
  key : Key
  source : Source
  level : Nat
  gain : Nat
  zone : Nat
  position : Nat
  e : Nat
  release : Nat
  start : Time
  generation : Byte
  primed : Bool
  hold : HoldCause
  deriving DecidableEq, Repr

/-- A note request handed to the Voice Engine (R83), with the level or release level it carries. -/
inductive NoteRequest where
  | strike (key : Key) (level : Byte)
  | release (key : Key) (level : Byte)
  deriving DecidableEq, Repr

/-- The Voice Engine's state (R82, R85, R105), and the requests each source has handed over that the engine has not yet
taken, oldest first (R83; notes/assumptions/8.md). -/
structure VoiceEngine where
  voices : Vector Voice 96
  acousticLayer : Bool
  notReady : Nat
  noZone : Nat
  underrun : Nat
  liveRequests : List NoteRequest
  playbackRequests : List NoteRequest
  deriving DecidableEq, Repr

/-! ### Wave Fetch Unit (06_wave_store_and_voice_buffers.md) -/

/-- One entry of the zone table (R107). -/
structure ZoneEntry where
  key : Nat
  levelLo : Nat
  levelHi : Nat
  loop : Bool
  start : Nat
  length : Nat
  loopStart : Nat
  deriving DecidableEq, Repr

/-- Outcomes of operations and loads, from one list (R197). -/
inductive OpOutcome where
  | none
  | complete
  | truncated
  | badStore
  | aborted
  | interrupted
  | failed
  deriving DecidableEq, Repr

/-- The load summary (R109). -/
structure LoadSummary where
  outcome : OpOutcome
  zoneCount : Option Nat
  loaded : Nat
  skipped : Nat
  deriving DecidableEq, Repr

/-- A zone load in progress (R110): the header's zone count once its read has arrived, the number of entries to read, the
number read, the number skipped, and whether its next read waits for the port. -/
structure Load where
  zoneCount : Option Nat
  total : Nat
  done : Nat
  skipped : Nat
  waiting : Bool
  deriving DecidableEq, Repr

/-- One voice's buffer (R113). The count is the length of samples. -/
structure Buffer where
  samples : List Int
  fetchPosition : Nat
  endFetched : Bool
  requesting : Bool
  inFlight : Bool
  deriving DecidableEq, Repr

/-- A diagnostic read (R122). -/
structure DiagnosticRead where
  address : Nat
  count : Nat
  deriving DecidableEq, Repr

/-- The transfer on the wave store port (R119). A load read whose load was aborted finishes with its data discarded
(R112). A voice fetch carries its tag: voice number and generation (R116). -/
inductive Transfer where
  | loadRead (address count : Nat) (discarded : Bool)
  | fetch (voice : VoiceIx) (generation : Byte) (address burst : Nat)
  | diagnostic (address count : Nat)
  deriving DecidableEq, Repr

/-- The Wave Fetch Unit's state (R109, R110, R113, R119). The table's loading state is loading exactly while a load is
in progress (R110, R111). -/
structure WaveUnit where
  zones : List ZoneEntry
  load : Option Load
  summary : LoadSummary
  buffers : Vector Buffer 96
  port : Option Transfer
  diagnostics : List DiagnosticRead
  deriving DecidableEq, Repr

/-! ### Audio Port (07_audio_port_and_output_mixing.md) -/

/-- The three output channels (R129). -/
inductive Channel where
  | hp1
  | hp2
  | line
  deriving DecidableEq, Repr

/-- The sides of a channel (R124). -/
inductive Side where
  | left
  | right
  deriving DecidableEq, Repr

/-- One entry of the routing table (R124). -/
inductive Route where
  | off
  | out (channel : Channel) (side : Side)
  deriving DecidableEq, Repr

/-- A gain's target and current value (R124). -/
structure Gain where
  target : Nat
  current : Nat
  deriving DecidableEq, Repr

/-- The two gains of a channel (R124). -/
structure ChannelGains where
  live : Gain
  playback : Gain
  deriving DecidableEq, Repr

/-- The four bus values (R124). -/
structure Buses where
  liveL : Int
  liveR : Int
  playL : Int
  playR : Int
  deriving DecidableEq, Repr

/-- The Audio Port's state (R124), and the eight values of the latest frame sent (R125), whose bits are
AudioPort.frameBits. -/
structure AudioPort where
  routes : Vector Route 8
  hp1 : ChannelGains
  hp2 : ChannelGains
  line : ChannelGains
  buses : Buses
  slots : Vector Int 8
  sent : Vector Int 8
  deriving DecidableEq, Repr

/-! ### Performance Recorder (08_performance_recorder.md) -/

/-- The two record blocks (R136). -/
inductive BlockName where
  | a
  | b
  deriving DecidableEq, Repr

/-- A record block's state, with its sequence number while READY (R136). -/
inductive BlockState where
  | empty
  | active
  | ready (sequence : Byte)
  deriving DecidableEq, Repr

/-- A record block (R136). Its record count is the length of records. -/
structure RecordBlock where
  state : BlockState
  records : List Record
  deriving DecidableEq, Repr

/-- The source mask (R136). -/
inductive SourceMask where
  | live
  | playback
  | both
  deriving DecidableEq, Repr

/-- The Performance Recorder's state (R136), and whether a recovery was cut off with GAP records written (R143, R149). -/
structure Recorder where
  recording : Bool
  mask : SourceMask
  blockA : RecordBlock
  blockB : RecordBlock
  readyFirst : Option BlockName
  sequence : Byte
  lastWritten : Time
  lostCount : Nat
  firstLost : Option Time
  recoveryPending : Bool
  deriving DecidableEq, Repr

/-! ### Practice Player (09_practice_player.md) -/

/-- Player states, with the resume state in PAUSED and the halt reason in HALTED (R150). -/
inductive PlayerState where
  | idle
  | running
  | waiting
  | pausedRunning
  | pausedWaiting
  | haltedBadEvent
  | haltedChainEmpty
  deriving DecidableEq, Repr

/-- The hands a segment sounds (R154). -/
inductive Hands where
  | both
  | left
  | right
  | none
  deriving DecidableEq, Repr

/-- A segment entry (R154): repeats of 0 is ENDLESS, an absent next is END. -/
structure Segment where
  start : Nat
  count : Nat
  repeats : Nat
  tempo : Nat
  hands : Hands
  wait : Bool
  next : Option (Fin 32)
  deriving DecidableEq, Repr

/-- Repetitions left (R150). -/
inductive Repetitions where
  | endless
  | left (n : Nat)
  deriving DecidableEq, Repr

/-- The Practice Player's state (R150). The passage store lists, in rising slot order, the slots whose record is not the
reset record. -/
structure Player where
  state : PlayerState
  passage : List (Nat × Record)
  segments : Vector Segment 32
  copy : Option (Fin 32 × Segment)
  next : Option (Fin 32)
  slot : Nat
  repsLeft : Repetitions
  pass : Nat
  countdown : Nat
  gap : Nat
  satisfied : Option Nat
  skips : Nat
  /-- the held-key set, in ascending key order -/
  held : List Key
  /-- the expected-key set, in ascending key order -/
  expected : List Key
  wrong : Nat
  split : Key
  masterTempo : Nat
  /-- the tempo counter: absent when stopped, else the µs left in its period; 0 is its expiry due -/
  tempo : Option Nat
  deriving DecidableEq, Repr

/-! ### Control Link (10_the_control_link.md) -/

/-- The eleven notices (R183). -/
inductive Notice where
  | opDone
  | railDone
  | railGiveup
  | railFault
  | recordReady
  | recordLost
  | playEnd
  | playHalt
  | playWait
  | waveFault
  | linkError
  deriving DecidableEq, Repr

/-- The long operations (R186). -/
inductive Operation where
  | startup
  | loadZones
  | learnRest
  | railCalibrate
  deriving DecidableEq, Repr

/-- The rest-learning details of a result (R187): the number of unsettled sensors, and the first 8 of their numbers. -/
structure RestDetails where
  unsettled : Nat
  first8 : List Nat
  deriving DecidableEq, Repr

/-- The details of an operation's result (R187, R197). -/
inductive Details where
  | nothing
  | load (summary : LoadSummary)
  | rest (details : RestDetails)
  | calibration (closing opening limit : Nat)
  | railFault (reason : FaultReason)
  | startup (summary : LoadSummary) (rest : RestDetails)
  deriving DecidableEq, Repr

/-- The operation slot (R186). -/
inductive Slot where
  | empty
  | running (op : Operation)
  | finished (op : Operation) (outcome : OpOutcome) (details : Details)
  deriving DecidableEq, Repr

/-- The frame receiver (R177): its state and the frame being assembled. -/
inductive Receiver where
  | hunt
  | length
  | body (len : Nat) (got : List Byte)
  | check (len : Nat) (got : List Byte)
  deriving DecidableEq, Repr

/-- Status codes (R181, 11.2). -/
inductive Status where
  | ok
  | busy
  | wrongState
  | badValue
  | badLength
  | unknownKind
  | notReady
  deriving DecidableEq, Repr

/-- A reply (R176): the kind code of the request it answers, its status and its payload. -/
structure Reply where
  kind : Byte
  status : Status
  payload : List Byte
  deriving DecidableEq, Repr

/-- The dispatcher (R180): SERVING is a READ WAVE STORE whose read has not arrived; a reply in SENDING to a RESET PART is
followed by the reset (R193). -/
inductive Dispatcher where
  | idle
  | serving
  | sending (reply : Reply) (thenReset : Bool)
  deriving DecidableEq, Repr

/-- The Control Link's state (R177, R179, R180, R182, R183, R186). The queue holds the bodies of the checked frames, oldest
first. Bit n of pendingSet and of maskSet is the notice of code n (R194); RECORD_READY's pending flag is not stored, since
it is exactly the condition that a record block is READY (R148). -/
structure Link where
  receiver : Receiver
  /-- the inter-byte timer: absent when stopped, else the µs left; 0 is its expiry due -/
  interByte : Option Nat
  queue : List (List Byte)
  dispatcher : Dispatcher
  pendingSet : BitVec 11
  maskSet : BitVec 11
  badCheck : Nat
  framing : Nat
  overrun : Nat
  slot : Slot
  deriving DecidableEq, Repr

/-- The whole part, and the queue of commands waiting, first in, first out. -/
structure State where
  /-- RESET_N is low: the part is held in reset (R193) -/
  inReset : Bool
  actionClock : Stamp
  perfClock : Time
  /-- the model's own: how many free values have been drawn (Config.tempoWithoutCopy) -/
  draws : Nat
  scanner : Scanner
  touch : TouchUnit
  pedals : PedalUnit
  rail : Rail
  voice : VoiceEngine
  wave : WaveUnit
  audio : AudioPort
  recorder : Recorder
  player : Player
  link : Link
  pending : List Instr
  deriving DecidableEq, Repr

/-! ### Reset values -/

/-- A key record after part reset with both gates BELOW (R1). -/
def KeyRecord.reset : KeyRecord where
  phase := .idle
  zone := .low
  travel := 0
  history := Vector.replicate 5 0
  g1 := ⟨false, 0⟩
  g2 := ⟨false, 0⟩
  g2Stamp := none
  strikeStamp := none
  prevStrikeStamp := none
  lastLevel := 0
  lastRelease := 0
  strikes := 0
  missed := 0
  orphan := 0
  rebound := 0
  gateFault := 0

/-- The Scanner after part reset (R1, R17, R18, R20): the settle timer starts as though a landing had occurred. -/
def Scanner.reset : Scanner where
  keys := Vector.replicate 88 KeyRecord.reset
  ready := false
  flightCount := 0
  lastLanding := none
  settle := some Config.settleTime
  quiet := false
  learning := none

/-- The default regulation entry (R26). -/
def RegEntry.reset : RegEntry := ⟨0, 60, 450, 40, 256, 0, true⟩

/-- The Touch Unit after part reset: default entries (R26) and the default curve (R33). -/
def TouchUnit.reset : TouchUnit where
  table := Vector.replicate 88 RegEntry.reset
  inEffect := Vector.replicate 88 RegEntry.reset
  curve := #v[⟨0, 1⟩, ⟨20, 8⟩, ⟨40, 20⟩, ⟨80, 40⟩, ⟨120, 58⟩, ⟨160, 74⟩, ⟨240, 96⟩, ⟨320, 112⟩, ⟨1023, 127⟩]

/-- The Pedal Unit after part reset (R42). -/
def PedalUnit.reset : PedalUnit where
  damperRest := 0
  unaCordaRest := 0
  map := ⟨200, 800⟩
  damperRestInEffect := 0
  unaCordaRestInEffect := 0
  mapInEffect := ⟨200, 800⟩
  damperTravel := 0
  unaCordaTravel := 0
  filter := ⟨false, 0⟩
  sostenutoRaw := 0
  following := false
  live := ⟨0, false, 0, 0⟩
  playback := ⟨0, false, 0, 0⟩
  mergedLift := 0
  mergedSostenuto := false
  latch := []
  refLift := 0
  refSostenuto := false
  refUnaCorda := 0

/-- The Rail Controller after part reset with both switches INACTIVE and the guard released (R55, R59). -/
def Rail.reset : Rail where
  state := .homing .waiting
  target := .opened
  origin := none
  attempts := 0
  drive := none
  moveDuty := 70
  travelDuty := 70
  moveTimer := none
  travelLimit := 1500
  closingTime := none
  openingTime := none
  switchOpen := ⟨false, 0⟩
  switchClosed := ⟨false, 0⟩
  guardLow := false
  legStart := 0
  legClosing := 0

/-- A voice record after part reset (R82). -/
def Voice.reset : Voice where
  state := .free
  key := 0
  source := .live
  level := 1
  gain := 0
  zone := 0
  position := 0
  e := 0
  release := 64
  start := 0
  generation := 0
  primed := false
  hold := .none

/-- The Voice Engine after part reset (R82, R85, R105). -/
def VoiceEngine.reset : VoiceEngine where
  voices := Vector.replicate 96 Voice.reset
  acousticLayer := false
  notReady := 0
  noZone := 0
  underrun := 0
  liveRequests := []
  playbackRequests := []

/-- A voice buffer after part reset or freeing (R113). -/
def Buffer.reset : Buffer := ⟨[], 0, false, false, false⟩

/-- The load summary after part reset (R109). -/
def LoadSummary.reset : LoadSummary := ⟨.none, none, 0, 0⟩

/-- The Wave Fetch Unit after part reset (R109, R113): STARTUP's load step has begun (R188), and the port, free when the
reset ends, carries its header read (R110, R119). -/
def WaveUnit.reset : WaveUnit where
  zones := []
  load := some ⟨none, 0, 0, 0, false⟩
  summary := LoadSummary.reset
  buffers := Vector.replicate 96 Buffer.reset
  port := some (.loadRead 0 8 false)
  diagnostics := []

/-- The Audio Port after part reset (R124). -/
def AudioPort.reset : AudioPort where
  routes := #v[.out .hp1 .left, .out .hp1 .right, .out .hp2 .left, .out .hp2 .right, .out .line .left, .out .line .right,
    .off, .off]
  hp1 := ⟨⟨128, 128⟩, ⟨128, 128⟩⟩
  hp2 := ⟨⟨128, 128⟩, ⟨128, 128⟩⟩
  line := ⟨⟨0, 0⟩, ⟨0, 0⟩⟩
  buses := ⟨0, 0, 0, 0⟩
  slots := Vector.replicate 8 0
  sent := Vector.replicate 8 0

/-- The Performance Recorder after part reset (R136). -/
def Recorder.reset : Recorder where
  recording := false
  mask := .live
  blockA := ⟨.empty, []⟩
  blockB := ⟨.empty, []⟩
  readyFirst := none
  sequence := 0
  lastWritten := 0
  lostCount := 0
  firstLost := none
  recoveryPending := false

/-- A segment entry after part reset (R154). -/
def Segment.reset : Segment := ⟨0, 0, 1, 100, .both, false, none⟩

/-- The Practice Player after part reset (R150). -/
def Player.reset : Player where
  state := .idle
  passage := []
  segments := Vector.replicate 32 Segment.reset
  copy := none
  next := none
  slot := 0
  repsLeft := .left 0
  pass := 1
  countdown := 0
  gap := 0
  satisfied := none
  skips := 0
  held := []
  expected := []
  wrong := 0
  split := 39
  masterTempo := 100
  tempo := none

/-- The Control Link after part reset (R193): the slot is RUNNING with STARTUP (R188). -/
def Link.reset : Link where
  receiver := .hunt
  interByte := none
  queue := []
  dispatcher := .idle
  pendingSet := 0
  maskSet := 0
  badCheck := 0
  framing := 0
  overrun := 0
  slot := .running .startup

/-- The part right after a part reset (R193). The pins are inputs, and State.reset takes them at rest: every gate BELOW,
both end switches INACTIVE, the guard released (notes/assumptions/11.md). -/
def State.reset : State where
  inReset := false
  actionClock := 0
  perfClock := 0
  draws := 0
  scanner := Scanner.reset
  touch := TouchUnit.reset
  pedals := PedalUnit.reset
  rail := Rail.reset
  voice := VoiceEngine.reset
  wave := WaveUnit.reset
  audio := AudioPort.reset
  recorder := Recorder.reset
  player := Player.reset
  link := Link.reset
  pending := []

end Sys2Proof.Machine
end

