-- ==== Sys2Proof/Machine/Ops.lean ====
section
/-! DEFINITION. The named operations every block uses: tables, counters, clocks, key sets, and one update of State per block. -/

namespace Sys2Proof.Machine

/-- The table whose every entry is f of the old one. -/
def mapTable {α β : Type} {n : Nat} (f : α → β) (t : Vector α n) : Vector β n := Vector.ofFn fun i => f t[i]

/-- The table whose every entry is f of its number and the old one. -/
def mapTableIx {α β : Type} {n : Nat} (f : Fin n → α → β) (t : Vector α n) : Vector β n := Vector.ofFn fun i => f i t[i]

/-- The table with entry i replaced by f of it. -/
def updateAt {α : Type} {n : Nat} (i : Fin n) (f : α → α) (t : Vector α n) : Vector α n := t.set i (f t[i])

/-- One more on a counter, which stops at 65,535 (00_scope.md, Counters). -/
def bump (c : Nat) : Nat := if c < Config.counterMax then c + 1 else c

/-- A value clamped to a range (00_scope.md, Arithmetic). -/
def clamp (lo hi n : Nat) : Nat := max lo (min hi n)

/-- An integer clamped to a range (00_scope.md, Arithmetic). -/
def clampInt (lo hi n : Int) : Int := max lo (min hi n)

/-- A value saturated to ±(2^23 - 1) (R128, R129). -/
def saturate (n : Int) : Int := clampInt (-Config.fullScale) Config.fullScale n

/-- The time from a stamp to now on a clock that wraps (00_scope.md, Time). -/
def ageOf {w : Nat} (now stamp : BitVec w) : Nat := (now - stamp).toNat

/-- One tick off a running timer; a stopped timer stays stopped and one at 0 stays due. -/
def runDown (timer : Option Nat) : Option Nat := timer.map fun n => n - 1

/-- All keys, in ascending order. -/
def allKeys : List Key := List.finRange 88

/-- All voice numbers, in ascending order. -/
def allVoices : List VoiceIx := List.finRange 96

/-- A key joins a set kept in ascending order; one already there stays there once. -/
def insertKey (k : Key) : List Key → List Key
  | [] => [k]
  | j :: rest => if k < j then k :: j :: rest else if k = j then j :: rest else j :: insertKey k rest

/-- A key leaves a set. -/
def removeKey (k : Key) (set : List Key) : List Key := set.filter (· ≠ k)

/-- The state with its scanner block changed by f. -/
def State.onScanner (f : Scanner → Scanner) (s : State) : State := { s with scanner := f s.scanner }

/-- The state with its touch block changed by f. -/
def State.onTouch (f : TouchUnit → TouchUnit) (s : State) : State := { s with touch := f s.touch }

/-- The state with its pedals block changed by f. -/
def State.onPedals (f : PedalUnit → PedalUnit) (s : State) : State := { s with pedals := f s.pedals }

/-- The state with its rail block changed by f. -/
def State.onRail (f : Rail → Rail) (s : State) : State := { s with rail := f s.rail }

/-- The state with its voice block changed by f. -/
def State.onVoice (f : VoiceEngine → VoiceEngine) (s : State) : State := { s with voice := f s.voice }

/-- The state with its wave block changed by f. -/
def State.onWave (f : WaveUnit → WaveUnit) (s : State) : State := { s with wave := f s.wave }

/-- The state with its audio block changed by f. -/
def State.onAudio (f : AudioPort → AudioPort) (s : State) : State := { s with audio := f s.audio }

/-- The state with its recorder block changed by f. -/
def State.onRecorder (f : Recorder → Recorder) (s : State) : State := { s with recorder := f s.recorder }

/-- The state with its player block changed by f. -/
def State.onPlayer (f : Player → Player) (s : State) : State := { s with player := f s.player }

/-- The state with its link block changed by f. -/
def State.onLink (f : Link → Link) (s : State) : State := { s with link := f s.link }

end Sys2Proof.Machine
end

