-- ==== Sys2Proof/Machine/Flags.lean ====
section
/-! DEFINITION. The notice flags and the attention output (R183, R185), and the end of a long operation in the operation slot (R187). -/

namespace Sys2Proof.Machine

/-- Notice codes (11.4). -/
def Notice.code : Notice → Nat
  | .opDone => 0
  | .railDone => 1
  | .railGiveup => 2
  | .railFault => 3
  | .recordReady => 4
  | .recordLost => 5
  | .playEnd => 6
  | .playHalt => 7
  | .playWait => 8
  | .waveFault => 9
  | .linkError => 10

/-- The set holding one notice (R194). -/
def Notice.bit (n : Notice) : BitVec 11 := BitVec.twoPow 11 n.code

/-- A notice becomes pending; one already pending stays pending (R183). -/
def State.raise (n : Notice) (s : State) : State :=
  s.onLink fun l => { l with pendingSet := l.pendingSet ||| n.bit }

/-- Raises a notice when the flag is set. -/
def State.raiseIf (b : Bool) (n : Notice) (s : State) : State := if b then s.raise n else s

/-- A record block is READY (R136). -/
def BlockState.isReady : BlockState → Bool
  | .ready _ => true
  | _ => false

/-- At least one record block is READY (R148). -/
def Recorder.anyReady (r : Recorder) : Bool := r.blockA.state.isReady || r.blockB.state.isReady

/-- The set of pending notices: the event notices raised and not cleared, and RECORD_READY exactly while a block is READY
(R183, R148). -/
def State.pendingNotices (s : State) : BitVec 11 :=
  (s.link.pendingSet &&& ~~~Notice.recordReady.bit) ||| (if s.recorder.anyReady then Notice.recordReady.bit else 0)

/-- A notice is pending (R183). -/
def State.isPending (s : State) (n : Notice) : Bool := s.pendingNotices.getLsbD n.code

/-- A notice is masked (R183). -/
def State.isMasked (s : State) (n : Notice) : Bool := s.link.maskSet.getLsbD n.code

/-- ATTN_N is low: a notice is both pending and unmasked, and RESET_N is not low (R185). -/
def State.attnLow (s : State) : Bool := !s.inReset && (s.pendingNotices &&& ~~~s.link.maskSet) != 0

/-- A long operation ends: the slot becomes FINISHED with its result and OP_DONE is raised (R187). -/
def State.endOperation (outcome : OpOutcome) (details : Details) (s : State) : State :=
  match s.link.slot with
  | .running op => (s.onLink fun l => { l with slot := .finished op outcome details }).raise .opDone
  | _ => s

end Sys2Proof.Machine
end

