-- ==== Sys2Proof/Machine/Record.lean ====
section
/-! DEFINITION. The Performance Recorder's own work (08_performance_recorder.md): records, the two blocks, overflow and recovery, and what an offered event does. -/

namespace Sys2Proof.Machine

/-- The three pedals, coded damper 0, sostenuto 1, una corda 2 (11.5). -/
inductive Pedal where
  | damper
  | sostenuto
  | unaCorda
  deriving DecidableEq, Repr

/-- The code of a pedal (11.5). -/
def Pedal.code : Pedal → Byte
  | .damper => 0
  | .sostenuto => 1
  | .unaCorda => 2

/-- An event offered to the recorder (R137, R138). -/
inductive RecorderEvent where
  | strike (key : Key) (level : Byte)
  | release (key : Key) (level : Byte)
  | pedal (which : Pedal) (value : Byte)
  | mark (segment : Byte) (pass : Byte)
  deriving DecidableEq, Repr

/-- The event's record with a delta (R137, 11.5). -/
def RecorderEvent.record (e : RecorderEvent) (delta : Byte) : Record :=
  match e with
  | .strike key level => ⟨1, BitVec.ofNat 8 key, level, delta⟩
  | .release key level => ⟨2, BitVec.ofNat 8 key, level, delta⟩
  | .pedal which value => ⟨3, which.code, value, delta⟩
  | .mark segment pass => ⟨6, segment, pass, delta⟩

/-- A GAP record of a time in ms, with delta 0 (R139, R196). -/
def gapRecord (ms : Nat) : Record := ⟨4, BitVec.ofNat 8 ms, BitVec.ofNat 8 (ms / 256), 0⟩

/-- A LOST record of a count (R143). -/
def lostRecord (count : Nat) (delta : Byte) : Record := ⟨5, BitVec.ofNat 8 count, BitVec.ofNat 8 (count / 256), delta⟩

/-- The other block. -/
def BlockName.other : BlockName → BlockName
  | .a => .b
  | .b => .a

/-- A block by name. -/
def Recorder.block (n : BlockName) (r : Recorder) : RecordBlock :=
  match n with
  | .a => r.blockA
  | .b => r.blockB

/-- The recorder with one block replaced. -/
def Recorder.withBlock (n : BlockName) (b : RecordBlock) (r : Recorder) : Recorder :=
  match n with
  | .a => { r with blockA := b }
  | .b => { r with blockB := b }

/-- The ACTIVE block, of which there is at most one (R136). -/
def Recorder.activeBlock (r : Recorder) : Option BlockName :=
  if r.blockA.state = .active then some .a else if r.blockB.state = .active then some .b else none

/-- A block becomes READY with the next sequence number, second in the ready order when the other is READY (R141). -/
def Recorder.becomeReady (n : BlockName) (r : Recorder) : Recorder :=
  let first := if (r.block n.other).state.isReady then some n.other else none
  { r.withBlock n { r.block n with state := .ready r.sequence } with sequence := r.sequence + 1, readyFirst := first }

/-- A full or flushed block becomes READY, and the other becomes ACTIVE if it is EMPTY (R141, R145). -/
def Recorder.handOver (n : BlockName) (r : Recorder) : Recorder :=
  let r := r.becomeReady n
  if (r.block n.other).state = .empty then r.withBlock n.other ⟨.active, []⟩ else r

/-- Writes a record into the ACTIVE block, which the 48th fills (R141); none when no block is ACTIVE. -/
def Recorder.append (rec : Record) (r : Recorder) : Option Recorder :=
  match r.activeBlock with
  | none => none
  | some n =>
    let b := r.block n
    let r := r.withBlock n { b with records := b.records ++ [rec] }
    some (if b.records.length + 1 < Config.blockRecords then r else r.handOver n)

/-- Writes a record that stands for a time: GAP records while the remaining time is more than 255, then the record with
the remaining time as its delta; the last-written stamp follows every record written (R139). It answers whether the
record itself was written. The two blocks hold 96 records, so the fuel of timedFuel is never used up. -/
def Recorder.writeTimed (time : Time) (rec : Byte → Record) : Nat → Recorder → Recorder × Bool
  | 0, r => (r, false)
  | fuel + 1, r =>
    let remaining := ageOf time r.lastWritten
    if remaining ≤ 255 then
      match r.append (rec (BitVec.ofNat 8 remaining)) with
      | some r => ({ r with lastWritten := time }, true)
      | none => (r, false)
    else
      let gap := min remaining 65535
      match r.append (gapRecord gap) with
      | some r' => Recorder.writeTimed time rec fuel { r' with lastWritten := r.lastWritten + BitVec.ofNat 32 gap }
      | none => (r, false)

/-- More than the 96 records two empty blocks can take. -/
def timedFuel : Nat := 97

/-- An event is lost (R142): it answers whether this is the loss that raises RECORD_LOST. The loss that brings the count
to 65,535 ends the recording. -/
def Recorder.lose (now : Time) (r : Recorder) : Recorder × Bool :=
  let count := bump r.lostCount
  let firstLost := if r.lostCount = 0 then some now else r.firstLost
  ({ r with lostCount := count, firstLost := firstLost, recording := r.recording && count != Config.counterMax },
    r.lostCount = 0)

/-- An event taken while RECORDING is written or lost (R138, R139, R142). -/
def Recorder.take (now : Time) (e : RecorderEvent) (r : Recorder) : Recorder × Bool :=
  match r.writeTimed now e.record timedFuel with
  | (r, true) => (r, false)
  | (r, false) => r.lose now

/-- The source mask includes a source (R138). -/
def SourceMask.includes (m : SourceMask) (source : Source) : Bool :=
  match m, source with
  | .both, _ => true
  | .live, .live => true
  | .playback, .playback => true
  | _, _ => false

/-- Recovery: the LOST marker, written at the first-lost time when a block has become ACTIVE (R143). When the blocks fill
before it is written, it is left pending. -/
def Recorder.recover (r : Recorder) : Recorder :=
  match r.firstLost with
  | none => r
  | some first =>
    match r.writeTimed first (lostRecord r.lostCount) timedFuel with
    | (r, true) => { r with lostCount := 0, firstLost := none, recoveryPending := false }
    | (r, false) => { r with recoveryPending := true }

/-- An event of a source is offered to the recorder (R138). -/
def State.offer (source : Source) (e : RecorderEvent) (s : State) : State :=
  if s.recorder.recording && s.recorder.mask.includes source then
    let (r, lost) := s.recorder.take s.perfClock e
    (s.onRecorder fun _ => r).raiseIf lost .recordLost
  else s

/-- A mark of the Practice Player is offered; while RECORDING it is always taken (R138, R162). -/
def State.offerMark (segment pass : Byte) (s : State) : State :=
  if s.recorder.recording then
    let (r, lost) := s.recorder.take s.perfClock (.mark segment pass)
    (s.onRecorder fun _ => r).raiseIf lost .recordLost
  else s

end Sys2Proof.Machine
end

