-- ==== Sys2Proof/Machine/Pedals.lean ====
section
/-! DEFINITION. The Pedal Unit's shared work (03_pedals.md): lift, depth, merging, the latch set, and the offers of pedal records. -/

namespace Sys2Proof.Machine

/-- A sensor's travel: the raw sample minus its rest, 0 to 1023 (R2, R43). -/
def travelOf (raw rest : Nat) : Nat := min 1023 (raw - rest)

/-- The damper lift of a travel by the pedal map (R44). -/
def liftOf (map : PedalMap) (travel : Nat) : Nat :=
  if travel ≤ map.contact then 0
  else if map.full ≤ travel then 255
  else (travel - map.contact) * 255 / (map.full - map.contact)

/-- The live una corda depth of a travel (R47). -/
def liveDepth (travel : Nat) : Nat := travel * 51 / 1023

/-- The live una corda value of a travel (R47). -/
def liveUnaCorda (travel : Nat) : Nat := travel / 4

/-- The playback una corda depth of a value (R48). -/
def playbackDepth (value : Nat) : Nat := value * 51 / 255

/-- The keys held by either source (R50): by LIVE when the phase is not IDLE, by PLAYBACK when in the held-key set. -/
def State.heldKeys (s : State) : List Key :=
  allKeys.filter fun k => s.scanner.keys[k].phase != .idle || s.player.held.contains k

/-- The merged values recomputed (R49), and the latch set at a turn of the merged sostenuto (R50): the given keys at its
turn-on, none at its turn-off. -/
def PedalUnit.merge (held : List Key) (p : PedalUnit) : PedalUnit :=
  let sostenuto := p.live.sostenuto || p.playback.sostenuto
  { p with
    mergedLift := max p.live.lift p.playback.lift
    mergedSostenuto := sostenuto
    latch := if sostenuto && !p.mergedSostenuto then held else if sostenuto then p.latch else [] }

/-- The merge with the keys held at this moment (R49, R50). -/
def State.mergePedals (s : State) : State := s.onPedals (PedalUnit.merge s.heldKeys)

/-- A fired PEDAL record's write of a playback pedal value (R48). -/
def PedalUnit.writePlayback (pedal : Pedal) (value : Nat) (p : PedalUnit) : PedalUnit :=
  match pedal with
  | .damper => { p with playback := { p.playback with lift := value } }
  | .sostenuto => { p with playback := { p.playback with sostenuto := value != 0 } }
  | .unaCorda => { p with playback := { p.playback with unaCorda := value, u := playbackDepth value } }

/-- A playback pedal is written and the pedals are merged (R48, R49). -/
def State.writePlayback (pedal : Pedal) (value : Nat) (s : State) : State :=
  (s.onPedals (PedalUnit.writePlayback pedal value)).mergePedals

/-- The three playback pedals return to rest (R48, R166). -/
def State.clearPlaybackPedals (s : State) : State :=
  (s.onPedals fun p => { p with playback := ⟨0, false, 0, 0⟩ }).mergePedals

/-- Two values differ by 8 or more (R52). -/
def movedBy8 (value reference : Nat) : Bool := value + 8 ≤ reference || reference + 8 ≤ value

/-- The byte of an ON or OFF (R52). -/
def onByte (on : Bool) : Byte := if on then 1 else 0

/-- The damper's offer at a scan (R52). -/
def State.offerDamper (s : State) : State :=
  let lift := s.pedals.live.lift
  if movedBy8 lift s.pedals.refLift || ((lift = 0 || lift = 255) && lift != s.pedals.refLift) then
    (s.offer .live (.pedal .damper (BitVec.ofNat 8 lift))).onPedals fun p => { p with refLift := lift }
  else s

/-- The sostenuto's offer (R52). -/
def State.offerSostenuto (s : State) : State :=
  let on := s.pedals.live.sostenuto
  if on != s.pedals.refSostenuto then
    (s.offer .live (.pedal .sostenuto (onByte on))).onPedals fun p => { p with refSostenuto := on }
  else s

/-- The una corda's offer at a scan (R52). -/
def State.offerUnaCorda (s : State) : State :=
  let value := s.pedals.live.unaCorda
  if movedBy8 value s.pedals.refUnaCorda || (value = 0 && s.pedals.refUnaCorda != 0) then
    (s.offer .live (.pedal .unaCorda (BitVec.ofNat 8 value))).onPedals fun p => { p with refUnaCorda := value }
  else s

/-- The three opening records of a recording, and the references set to their values (R53). -/
def State.offerOpening (s : State) : State :=
  let v := s.pedals.live
  let s := s.offer .live (.pedal .damper (BitVec.ofNat 8 v.lift))
  let s := s.offer .live (.pedal .sostenuto (onByte v.sostenuto))
  let s := s.offer .live (.pedal .unaCorda (BitVec.ofNat 8 v.unaCorda))
  s.onPedals fun p => { p with refLift := v.lift, refSostenuto := v.sostenuto, refUnaCorda := v.unaCorda }

/-- The sostenuto's test of a raw sample against the threshold opposite to the filtered state (R46). -/
def sostenutoMeets (on : Bool) (raw : Nat) : Bool := if on then raw ≤ 460 else 560 ≤ raw

/-- A scan filter's step by whether this scan's sample calls for a change: the third in a row makes the change due
(R46, R57). -/
def ScanFilter.step (opposite : Bool) (f : ScanFilter) : ScanFilter :=
  { f with count := if opposite then min Config.agreeing (f.count + 1) else 0 }

/-- A due change is confirmed: the state changes and the count returns to 0 (R46, R57). -/
def ScanFilter.confirm (f : ScanFilter) : ScanFilter := ⟨!f.on, 0⟩

/-- The filter's change is due. -/
def ScanFilter.due (f : ScanFilter) : Bool := f.count = Config.agreeing

end Sys2Proof.Machine
end

