-- ==== Sys2Proof/Machine/RailControl.lean ====
section
/-! DEFINITION. The Rail Controller's shared work (04_hammer_stop_rail.md): homing, the quiet grant, collisions, arrivals, departures, faults and the calibration. -/

namespace Sys2Proof.Machine

/-- The filter of an end's switch (4.1). -/
def Rail.switch (e : RailEnd) (r : Rail) : ScanFilter :=
  match e with
  | .opened => r.switchOpen
  | .closed => r.switchClosed

/-- The rail with the filter of one end's switch changed. -/
def Rail.onSwitch (e : RailEnd) (f : ScanFilter → ScanFilter) (r : Rail) : Rail :=
  match e with
  | .opened => { r with switchOpen := f r.switchOpen }
  | .closed => { r with switchClosed := f r.switchClosed }

/-- The state of resting at an end (4.1). -/
def restingAt : RailEnd → RailState
  | .opened => .opened
  | .closed => .closed

/-- The rail enters a state in which the drive is OFF and the move timer stopped (R56, R68). -/
def Rail.rest (st : RailState) (r : Rail) : Rail := { r with state := st, drive := none, moveTimer := none }

/-- The rail enters a state that drives toward an end, at a duty, with the move timer started (R56, R68). -/
def Rail.driving (st : RailState) (toward : RailEnd) (duty limit : Nat) (r : Rail) : Rail :=
  { r with state := st, drive := some ⟨toward, duty⟩, moveTimer := some limit }

/-- Entry to FAULT (R71); a second cause taken in FAULT changes nothing. From CALIBRATING it ends the operation with
FAILED (R77). -/
def State.railFaults (reason : FaultReason) (s : State) : State :=
  match s.rail.state with
  | .fault _ => s
  | .calibrating _ =>
    ((s.onRail (Rail.rest (.fault reason))).raise .railFault).endOperation .failed (.railFault reason)
  | _ => (s.onRail (Rail.rest (.fault reason))).raise .railFault

/-- What the quiet indicator, when it is true, starts (R63): a waiting move, homing, or a leg of a calibration. It is
taken at the moment the indicator becomes true and at each entry to a waiting state. -/
def State.quietGrant (s : State) : State :=
  if s.scanner.quiet then
    match s.rail.state with
    | .waitQuiet => s.onRail fun r => { r with moveDuty := r.travelDuty }.driving .moving r.target r.travelDuty r.travelLimit
    | .homing .waiting => s.onRail (Rail.driving (.homing .driving) .opened Config.homingDuty Config.homingLimit)
    | .calibrating .waitClose =>
      s.onRail fun r => { r with legStart := s.perfClock }.driving (.calibrating .closing) .closed r.moveDuty r.travelLimit
    | .calibrating .waitOpen =>
      s.onRail fun r => { r with legStart := s.perfClock }.driving (.calibrating .opening) .opened r.moveDuty r.travelLimit
    | _ => s
  else s

/-- Entry to HOMING (R59). -/
def State.enterHoming (s : State) : State :=
  let s := s.onRail fun r => { r.rest (.homing .waiting) with attempts := 0, target := .opened, origin := none }
  if s.rail.guardLow then s.railFaults .guard
  else if s.rail.switchOpen.on && s.rail.switchClosed.on then s.railFaults .switchConflict
  else if s.rail.switchOpen.on then (s.onRail (Rail.rest .opened)).raise .railDone
  else s.quietGrant

/-- A G2 upward crossing is reported to the rail (R19): a collision while the rail drives in MOVING, in homing or in
calibration (R60, R66, R76), and nothing in every other state (R64, R67). -/
def State.g2Report (s : State) : State :=
  match s.rail.state with
  | .moving =>
    s.onRail fun r => { r with attempts := r.attempts + 1 }.driving (.returning .retry) (r.origin.getD .opened) r.moveDuty
      r.travelLimit
  | .homing .driving => s.onRail (Rail.rest (.homing .waiting))
  | .calibrating .closing | .calibrating .opening =>
    (s.onRail fun r => { r with origin := some .opened }.driving (.returning .calibration) .opened r.moveDuty
      r.travelLimit).endOperation .interrupted .nothing
  | _ => s

/-- The travel limit of two measured times (R75). -/
def limitOf (closing opening : Nat) : Nat := clamp 200 3000 (3 * max closing opening / 2)

/-- A calibration completes at the arrival that ends OPENING (R75). -/
def State.calibrationCompletes (s : State) : State :=
  let closing := s.rail.legClosing
  let opening := ageOf s.perfClock s.rail.legStart
  let limit := limitOf closing opening
  (s.onRail fun r => { r.rest .opened with
    closingTime := some closing, openingTime := some opening, travelLimit := limit }).endOperation .complete
    (.calibration closing opening limit)

/-- A confirmed arrival at an end (R57), by the rail's state (R60, R65, R67, R69, R74). -/
def State.railArrives (e : RailEnd) (s : State) : State :=
  match s.rail.state with
  | .fault _ => s
  | st =>
    if s.rail.switchOpen.on && s.rail.switchClosed.on then s.railFaults .switchConflict
    else match st, e with
      | .homing _, .opened => (s.onRail (Rail.rest .opened)).raise .railDone
      | .moving, e => if e = s.rail.target then (s.onRail (Rail.rest (restingAt e))).raise .railDone else s
      | .returning .retry, e =>
        if some e = s.rail.origin then
          if s.rail.attempts < Config.maxAttempts then (s.onRail (Rail.rest .waitQuiet)).quietGrant
          else (s.onRail (Rail.rest (restingAt e))).raise .railGiveup
        else s
      | .returning .calibration, .opened => s.onRail (Rail.rest .opened)
      | .calibrating .closing, .closed =>
        (s.onRail fun r => { r.rest (.calibrating .waitOpen) with
          legClosing := ageOf s.perfClock r.legStart }).quietGrant
      | .calibrating .opening, .opened => s.calibrationCompletes
      | _, _ => s

/-- The switch that a resting rail stands on (R70). -/
def Rail.restSwitch (r : Rail) : Option RailEnd :=
  match r.state with
  | .opened => some .opened
  | .closed => some .closed
  | .waitQuiet => r.origin
  | .calibrating .waitClose => some .opened
  | .calibrating .waitOpen => some .closed
  | _ => none

/-- A confirmed departure from an end (R57): DRIFT when the rail is meant to rest there (R70), and nothing otherwise. -/
def State.railDeparts (e : RailEnd) (s : State) : State :=
  if s.rail.restSwitch = some e then s.railFaults .drift else s

/-- A due change of an end switch's filter is confirmed (R57). -/
def State.confirmSwitch (e : RailEnd) (s : State) : State :=
  let s := s.onRail (Rail.onSwitch e ScanFilter.confirm)
  if (s.rail.switch e).on then s.railArrives e else s.railDeparts e

/-- The confirmation of an end switch is taken if it is due. -/
def State.takeSwitch (e : RailEnd) (s : State) : State := if (s.rail.switch e).due then s.confirmSwitch e else s

/-- The move timer's expiry is due: it has run down to 0 (R68). -/
def Rail.timerDue (r : Rail) : Bool := r.moveTimer = some 0

/-- The move timer's expiry is taken if it is due (R68). -/
def State.takeMoveTimer (s : State) : State := if s.rail.timerDue then s.railFaults .travelTimeout else s

end Sys2Proof.Machine
end

