-- ==== Sys2Proof/Decode.lean ====
section
/-! DEFINITION. The bytes of the control link: byte order (R194), the check byte (R176), the request codec (11.3, R195), and decodeTableWord, which answers none because no row of the opcode table gives bits. -/

namespace Sys2Proof

/-- The two bytes of a 16-bit field, least significant first (R194). -/
def halfBytes (x : Half) : List Byte := [x.extractLsb' 0 8, x.extractLsb' 8 8]

/-- The four bytes of a 32-bit field, least significant first (R194). -/
def longBytes (x : Long) : List Byte := [x.extractLsb' 0 8, x.extractLsb' 8 8, x.extractLsb' 16 8, x.extractLsb' 24 8]

/-- The 16-bit field of two bytes, least significant first (R194). -/
def half (b0 b1 : Byte) : Half := b1 ++ b0

/-- The 32-bit field of four bytes, least significant first (R194). -/
def long (b0 b1 b2 b3 : Byte) : Long := b3 ++ b2 ++ b1 ++ b0

/-- One of the eight steps of the CRC-8 register (R176). -/
def crcStep (r : Byte) : Byte := if r.msb then (r <<< 1) ^^^ 0x07#8 else r <<< 1

/-- The register after one byte (R176). -/
def crcByte (r b : Byte) : Byte :=
  crcStep (crcStep (crcStep (crcStep (crcStep (crcStep (crcStep (crcStep (r ^^^ b))))))))

/-- CHK over a run of bytes (R176). -/
def crc8 (bytes : List Byte) : Byte := bytes.foldl crcByte 0

/-- The bytes of a frame with this body: SOF, LEN, body, CHK (R176). -/
def frame (body : List Byte) : List Byte :=
  let covered := BitVec.ofNat 8 body.length :: body
  0xD5#8 :: covered ++ [crc8 covered]

/-- The 12 bytes of a regulation entry (11.6). -/
def RegFields.bytes (e : RegFields) : List Byte :=
  halfBytes e.rest ++ halfBytes e.touchPoint ++ halfBytes e.rearmPoint ++ halfBytes e.releasePoint
    ++ halfBytes e.gapScale ++ [e.trim, e.enabled]

/-- The 3 bytes of a curve point (11.6). -/
def CurvePoint.bytes (p : CurvePoint) : List Byte := halfBytes p.speed ++ [p.level]

/-- The 9 bytes of a segment entry (11.6). -/
def SegFields.bytes (e : SegFields) : List Byte :=
  halfBytes e.start ++ halfBytes e.count ++ [e.repeats, e.tempo, e.hands, e.wait, e.next]

/-- The 4 bytes of an event record (11.5). -/
def Record.bytes (r : Record) : List Byte := [r.kind, r.key, r.value, r.delta]

/-- A run of regulation entries read from its bytes (11.6). -/
def regEntries : List Byte → List RegFields
  | a :: b :: c :: d :: e :: f :: g :: h :: i :: j :: k :: l :: rest =>
    ⟨half a b, half c d, half e f, half g h, half i j, k, l⟩ :: regEntries rest
  | _ => []

/-- A run of curve points read from its bytes (11.6). -/
def curvePoints : List Byte → List CurvePoint
  | a :: b :: c :: rest => ⟨half a b, c⟩ :: curvePoints rest
  | _ => []

/-- A run of event records read from its bytes (11.5). -/
def recordRun : List Byte → List Record
  | a :: b :: c :: d :: rest => ⟨a, b, c, d⟩ :: recordRun rest
  | _ => []

/-- The kind code of a request (11.3). -/
def Request.kind : Request → Byte
  | .getIdentity => 0x01#8
  | .getStatus => 0x02#8
  | .resetPart => 0x03#8
  | .readNotices => 0x04#8
  | .clearNotices _ => 0x05#8
  | .setNoticeMask _ => 0x06#8
  | .startOperation _ => 0x07#8
  | .abortOperation => 0x08#8
  | .getOperationResult => 0x09#8
  | .getKeyState _ _ => 0x10#8
  | .getKeyCounters _ _ => 0x11#8
  | .setRegulation _ _ _ => 0x12#8
  | .getRegulation _ _ => 0x13#8
  | .setTouchCurve _ => 0x14#8
  | .getTouchCurve => 0x15#8
  | .getPedalState => 0x20#8
  | .setPedalMap _ _ => 0x21#8
  | .setRailMode _ => 0x28#8
  | .clearRailFault => 0x29#8
  | .setRailDrive _ => 0x2A#8
  | .getRailState => 0x2B#8
  | .setSoundOptions _ => 0x30#8
  | .getVoiceState _ _ => 0x31#8
  | .readWaveStore _ _ => 0x32#8
  | .getZone _ _ => 0x33#8
  | .setOutputGain _ _ _ => 0x38#8
  | .setRoute _ _ _ => 0x39#8
  | .getOutput => 0x3A#8
  | .recordStart _ => 0x40#8
  | .recordStop => 0x41#8
  | .recordFlush => 0x42#8
  | .readRecordBlock => 0x43#8
  | .writePassage _ _ _ => 0x50#8
  | .readPassage _ _ => 0x51#8
  | .writeSegment _ _ => 0x52#8
  | .readSegment _ => 0x53#8
  | .setSplit _ => 0x54#8
  | .setMasterTempo _ => 0x55#8
  | .playStart _ => 0x56#8
  | .playPause => 0x57#8
  | .playResume => 0x58#8
  | .playStop => 0x59#8
  | .playReset => 0x5A#8
  | .getPlayStatus => 0x5B#8

/-- The payload bytes of a request (11.3). -/
def Request.payload : Request → List Byte
  | .getIdentity => []
  | .getStatus => []
  | .resetPart => []
  | .readNotices => []
  | .clearNotices notices => halfBytes notices
  | .setNoticeMask notices => halfBytes notices
  | .startOperation code => [code]
  | .abortOperation => []
  | .getOperationResult => []
  | .getKeyState first count => [first, count]
  | .getKeyCounters first count => [first, count]
  | .setRegulation first count entries => [first, count] ++ entries.flatMap RegFields.bytes
  | .getRegulation first count => [first, count]
  | .setTouchCurve points => points.toList.flatMap CurvePoint.bytes
  | .getTouchCurve => []
  | .getPedalState => []
  | .setPedalMap contact full => halfBytes contact ++ halfBytes full
  | .setRailMode code => [code]
  | .clearRailFault => []
  | .setRailDrive duty => [duty]
  | .getRailState => []
  | .setSoundOptions option => [option]
  | .getVoiceState first count => [first, count]
  | .readWaveStore address count => longBytes address ++ [count]
  | .getZone first count => halfBytes first ++ [count]
  | .setOutputGain channel live playback => [channel, live, playback]
  | .setRoute slot channel side => [slot, channel, side]
  | .getOutput => []
  | .recordStart mask => [mask]
  | .recordStop => []
  | .recordFlush => []
  | .readRecordBlock => []
  | .writePassage start count records => halfBytes start ++ [count] ++ records.flatMap Record.bytes
  | .readPassage start count => halfBytes start ++ [count]
  | .writeSegment number entry => [number] ++ entry.bytes
  | .readSegment number => [number]
  | .setSplit key => [key]
  | .setMasterTempo tempo => [tempo]
  | .playStart segment => [segment]
  | .playPause => []
  | .playResume => []
  | .playStop => []
  | .playReset => []
  | .getPlayStatus => []

/-- The body of a request's frame: its kind code and its payload (R176). -/
def Request.body (r : Request) : List Byte := r.kind :: r.payload

/-- What the dispatcher reads from a body: a request, or one of the two answers of R181's first two checks. -/
inductive Parsed where
  | unknownKind (kind : Byte)
  | badLength (kind : Byte)
  | request (r : Request)
  deriving DecidableEq, Repr

/-- Reads the payload of a known kind; none where its length is not the length the kind, or its count, implies (R195). -/
def parsePayload (kind : Byte) (payload : List Byte) : Option (Option Request) :=
  match kind.toNat, payload with
  | 1, [] => some (some .getIdentity)
  | 2, [] => some (some .getStatus)
  | 3, [] => some (some .resetPart)
  | 4, [] => some (some .readNotices)
  | 5, [a, b] => some (some (.clearNotices (half a b)))
  | 6, [a, b] => some (some (.setNoticeMask (half a b)))
  | 7, [a] => some (some (.startOperation a))
  | 8, [] => some (some .abortOperation)
  | 9, [] => some (some .getOperationResult)
  | 16, [a, b] => some (some (.getKeyState a b))
  | 17, [a, b] => some (some (.getKeyCounters a b))
  | 18, first :: count :: rest =>
    some (if rest.length = 12 * count.toNat then some (.setRegulation first count (regEntries rest)) else none)
  | 19, [a, b] => some (some (.getRegulation a b))
  | 20, payload =>
    some (if h : (curvePoints payload).length = 9 ∧ payload.length = 27 then
      some (.setTouchCurve ⟨(curvePoints payload).toArray, by simp [h.1]⟩) else none)
  | 21, [] => some (some .getTouchCurve)
  | 32, [] => some (some .getPedalState)
  | 33, [a, b, c, d] => some (some (.setPedalMap (half a b) (half c d)))
  | 40, [a] => some (some (.setRailMode a))
  | 41, [] => some (some .clearRailFault)
  | 42, [a] => some (some (.setRailDrive a))
  | 43, [] => some (some .getRailState)
  | 48, [a] => some (some (.setSoundOptions a))
  | 49, [a, b] => some (some (.getVoiceState a b))
  | 50, [a, b, c, d, e] => some (some (.readWaveStore (long a b c d) e))
  | 51, [a, b, c] => some (some (.getZone (half a b) c))
  | 56, [a, b, c] => some (some (.setOutputGain a b c))
  | 57, [a, b, c] => some (some (.setRoute a b c))
  | 58, [] => some (some .getOutput)
  | 64, [a] => some (some (.recordStart a))
  | 65, [] => some (some .recordStop)
  | 66, [] => some (some .recordFlush)
  | 67, [] => some (some .readRecordBlock)
  | 80, s0 :: s1 :: count :: rest =>
    some (if rest.length = 4 * count.toNat then some (.writePassage (half s0 s1) count (recordRun rest)) else none)
  | 81, [a, b, c] => some (some (.readPassage (half a b) c))
  | 82, [number, a, b, c, d, e, f, g, h, i] =>
    some (some (.writeSegment number ⟨half a b, half c d, e, f, g, h, i⟩))
  | 83, [a] => some (some (.readSegment a))
  | 84, [a] => some (some (.setSplit a))
  | 85, [a] => some (some (.setMasterTempo a))
  | 86, [a] => some (some (.playStart a))
  | 87, [] => some (some .playPause)
  | 88, [] => some (some .playResume)
  | 89, [] => some (some .playStop)
  | 90, [] => some (some .playReset)
  | 91, [] => some (some .getPlayStatus)
  | 1, _ | 2, _ | 3, _ | 4, _ | 5, _ | 6, _ | 7, _ | 8, _ | 9, _ | 16, _ | 17, _ | 18, _ | 19, _ | 21, _ | 32, _ | 33, _ | 40, _ | 41, _ | 42, _ | 43, _ | 48, _ | 49, _ | 50, _ | 51, _ | 56, _ | 57, _ | 58, _ | 64, _ | 65, _ | 66, _ | 67, _ | 80, _ | 81, _ | 82, _ | 83, _ | 84, _ | 85, _ | 86, _ | 87, _ | 88, _ | 89, _ | 90, _ | 91, _ => some none
  | _, _ => none

/-- Reads a body (R181): first its kind, then its length. An empty body does not arise, since LEN is 1 or more (R176). -/
def parseBody : List Byte → Parsed
  | [] => .unknownKind 0
  | kind :: payload =>
    match parsePayload kind payload with
    | none => .unknownKind kind
    | some none => .badLength kind
    | some (some r) => .request r

/-- The kinds of 11.3. -/
def isKind (kind : Byte) : Bool := (parsePayload kind []).isSome

/-- The length check of R195 on a request's operands: the count it carries is the number of entries it carries. -/
def Request.lengthOk : Request → Bool
  | .setRegulation _ count entries => entries.length = count.toNat
  | .writePassage _ count records => records.length = count.toNat
  | _ => true

/-- The command a table word spells. No row of spec/opcode_table.json gives bits, so no word spells one. -/
def decodeTableWord (_nbits _w : Nat) : Option Instr := none

end Sys2Proof
end

