-- ==== Sys2Proof/Machine/Operands.lean ====
section
/-! DEFINITION. The operand forms of the requests: the codes of enumerated fields (R194, 11.3, 11.6) and the checks of runs and entries (R24, R27, R34, R152, R154). An absent answer is a BAD_VALUE. -/

namespace Sys2Proof.Machine

/-- An on/off code: 0 off, 1 on (R194). -/
def onOffOf (code : Byte) : Option Bool :=
  match code.toNat with
  | 0 => some false
  | 1 => some true
  | _ => none

/-- The end SET RAIL MODE names: SILENT 0 the CLOSED end, ACOUSTIC 1 the OPEN end (R61, 11.3). -/
def railEndOf (code : Byte) : Option RailEnd :=
  match code.toNat with
  | 0 => some .closed
  | 1 => some .opened
  | _ => none

/-- The operation START OPERATION names (R186, R194). -/
def operationOf (code : Byte) : Option Operation :=
  match code.toNat with
  | 0 => some .startup
  | 1 => some .loadZones
  | 2 => some .learnRest
  | 3 => some .railCalibrate
  | _ => none

/-- An output channel's code: HP1 1, HP2 2, LINE 3 (11.3). -/
def channelOf (code : Byte) : Option Channel :=
  match code.toNat with
  | 1 => some .hp1
  | 2 => some .hp2
  | 3 => some .line
  | _ => none

/-- A side's code: L 0, R 1 (11.3). -/
def sideOf (code : Byte) : Option Side :=
  match code.toNat with
  | 0 => some .left
  | 1 => some .right
  | _ => none

/-- The routing entry SET ROUTE carries: channel code 0 is OFF whatever the side byte holds (R195). -/
def routeOf (channel side : Byte) : Option Route :=
  if channel = 0 then some .off
  else match channelOf channel, sideOf side with
    | some c, some d => some (.out c d)
    | _, _ => none

/-- The source mask RECORD START carries: 1 LIVE, 2 PLAYBACK, 3 both (11.3). -/
def maskOf (code : Byte) : Option SourceMask :=
  match code.toNat with
  | 1 => some .live
  | 2 => some .playback
  | 3 => some .both
  | _ => none

/-- The hands code: BOTH 0, LEFT 1, RIGHT 2, NONE 3 (11.6). -/
def handsOf (code : Byte) : Option Hands :=
  match code.toNat with
  | 0 => some .both
  | 1 => some .left
  | 2 => some .right
  | 3 => some .none
  | _ => none

/-- A key number of a request or a record, 0 to 87. -/
def keyOf (code : Byte) : Option Key := if h : code.toNat < 88 then some ⟨code.toNat, h⟩ else none

/-- The next field: 0 to 31, or END 255 (11.6). -/
def nextOf (code : Byte) : Option (Option (Fin 32)) :=
  if h : code.toNat < 32 then some (some ⟨code.toNat, h⟩) else if code = 255 then some none else none

/-- A set of notices naming none outside the eleven (R184, R194). -/
def noticesOf (set : Half) : Option (BitVec 11) :=
  if set.toNat < 2048 then some (set.setWidth 11) else none

/-- A run of first to first + count - 1 that is not too long and stays within a table (R24, R25, R27, R106, R152). -/
def runOk (least most size first count : Nat) : Bool :=
  decide (least ≤ count ∧ count ≤ most ∧ first < size ∧ first + count ≤ size)

/-- The regulation entry of its fields, when every field lies in its range and the thresholds are in order (R26, R27). -/
def regEntryOf (f : RegFields) : Option RegEntry :=
  match onOffOf f.enabled with
  | none => none
  | some on =>
    let rest := f.rest.toNat
    let touch := f.touchPoint.toNat
    let rearm := f.rearmPoint.toNat
    let release := f.releasePoint.toNat
    let gap := f.gapScale.toNat
    let trim := f.trim.toInt
    if rest ≤ 1023 ∧ 1 ≤ touch ∧ touch ≤ 1023 ∧ 1 ≤ rearm ∧ rearm ≤ 1023 ∧ 1 ≤ release ∧ release ≤ 1023
        ∧ 128 ≤ gap ∧ gap ≤ 511 ∧ -16 ≤ trim ∧ trim ≤ 15 ∧ release < touch ∧ touch < rearm
    then some ⟨rest, touch, rearm, release, gap, trim, on⟩ else none

/-- Every value, or none where one is missing. -/
def allOf {α : Type} : List (Option α) → Option (List α)
  | [] => some []
  | none :: _ => none
  | some a :: rest => (allOf rest).map (a :: ·)

/-- The touch curve of nine points, when R34 accepts it. -/
def curveOf (points : Vector CurvePoint 9) : Option (Vector TouchPoint 9) :=
  let curve := mapTable (fun p : CurvePoint => TouchPoint.mk p.speed.toNat p.level.toNat) points
  if curve[0].speed = 0 ∧ curve[8].speed = 1023
      ∧ (List.finRange 8).all (fun i : Fin 8 => curve[i.val].speed < curve[i.val + 1].speed
          && curve[i.val].level ≤ curve[i.val + 1].level)
      ∧ curve.toList.all (fun p => 1 ≤ p.level && p.level ≤ 127)
  then some curve else none

/-- The segment entry of its fields, when every field lies in its range (R154). -/
def segmentOf (f : SegFields) : Option Segment :=
  match handsOf f.hands, onOffOf f.wait, nextOf f.next with
  | some hands, some wait, some next =>
    let start := f.start.toNat
    let count := f.count.toNat
    if start ≤ 8191 ∧ count ≤ 8192 ∧ start + count ≤ 8192 ∧ f.repeats.toNat ≤ 16
        ∧ 25 ≤ f.tempo.toNat ∧ f.tempo.toNat ≤ 200
    then some ⟨start, count, f.repeats.toNat, f.tempo.toNat, hands, wait, next⟩ else none
  | _, _, _ => none

end Sys2Proof.Machine
end

