-- ==== Sys2Proof/Machine/Touch.lean ====
section
/-! DEFINITION. The Touch Unit's arithmetic (02_touch_measurement.md): hammer speed, touch curve, trim and gain. -/

namespace Sys2Proof.Machine

/-- The hammer speed in cm/s, clamped at 1023 (R31, R32). -/
def hammerSpeed (interval gapScale : Nat) : Nat := min 1023 (300000 * gapScale / (256 * interval))

/-- The segment of a speed: the lowest i with the speed of point i + 1 not below it (R37). -/
def curveSegment (curve : Vector TouchPoint 9) (v : Nat) : Fin 8 :=
  ((List.finRange 8).find? fun i : Fin 8 => curve[i.val].speed ≤ v && v ≤ curve[i.val + 1].speed).getD 7

/-- The curve level (R38). -/
def curveLevel (curve : Vector TouchPoint 9) (v : Nat) : Nat :=
  let i := curveSegment curve v
  let p := curve[i.val]
  let q := curve[i.val + 1]
  p.level + (v - p.speed) * (q.level - p.level) / (q.speed - p.speed)

/-- The touch level: the curve level plus the trim, clamped to 1 to 127 (R39). -/
def trimmedLevel (level : Nat) (trim : Int) : Nat := (clampInt 1 127 (level + trim)).toNat

/-- The touch level of a gate interval by an entry and the curve (R30); an interval of 0 counts as 1 (R10). -/
def touchLevel (entry : RegEntry) (curve : Vector TouchPoint 9) (interval : Nat) : Nat :=
  trimmedLevel (curveLevel curve (hammerSpeed (max 1 interval) entry.gapScale)) entry.trim

/-- The gain of a sounding level (R41). -/
def gainOf (level : Nat) : Nat := level * level * 4096 / 16129

end Sys2Proof.Machine
end

