-- ==== Sys2Proof/Machine/WaveFetch.lean ====
section
/-! DEFINITION. The shared work of the Wave Fetch Unit and of the voices it feeds (05_voice_engine.md, 06_wave_store_and_voice_buffers.md): freeing, hold, priming, refill, the port arbiter and the zone load. -/

namespace Sys2Proof.Machine

/-! ### Voices -/

/-- A voice is in use (R82). -/
def Voice.inUse (v : Voice) : Bool := v.state != .free

/-- A voice's state allows output or will (R115): it is PRIMING, SOUNDING, DAMPING or FADING. -/
def Voice.refillable (v : Voice) : Bool := v.inUse

/-- A voice freed (R101): the other fields keep their values. -/
def Voice.freed (v : Voice) : Voice := { v with state := .free, primed := false, hold := .none }

/-- A voice is freed: its record, and its buffer emptied with any request withdrawn (R101, R113). -/
def State.freeVoice (i : VoiceIx) (s : State) : State :=
  (s.onVoice fun e => { e with voices := updateAt i Voice.freed e.voices }).onWave
    fun w => { w with buffers := w.buffers.set i Buffer.reset }

/-- Every voice in use is freed (R104). -/
def State.freeAllVoices (s : State) : State :=
  (s.onVoice fun e => { e with voices := mapTable (fun v => if v.inUse then v.freed else v) e.voices }).onWave
    fun w => { w with buffers := mapTable (fun _ => Buffer.reset) w.buffers }

/-- What holds a voice at this moment (R94). -/
def State.holdCause (s : State) (v : Voice) : HoldCause :=
  let bySource : Bool := match v.source with
    | .live => s.scanner.keys[v.key].phase != .idle
    | .playback => s.player.held.contains v.key
  if bySource then .source
  else if s.pedals.mergedSostenuto && s.pedals.latch.contains v.key then .latch
  else if s.pedals.mergedLift = 255 then .lift
  else .none

/-- The hold test (R94): a held voice is SOUNDING and an unheld one DAMPING. -/
def State.holdTest (s : State) (v : Voice) : Voice :=
  let cause := s.holdCause v
  { v with hold := cause, state := if cause = .none then .damping else .sounding }

/-- The priming report for a voice (R95, R96): the primed mark is set, and a PRIMING voice takes the hold test. -/
def State.primingReport (i : VoiceIx) (s : State) : State :=
  s.onVoice fun e => { e with
    voices := updateAt i (fun v =>
      let v := { v with primed := true }
      if v.state = .priming then s.holdTest v else v) e.voices }

/-! ### Zones, buffers and the refill condition -/

/-- An empty zone, for a voice whose zone number is not in the table. -/
def ZoneEntry.empty : ZoneEntry := ⟨0, 1, 127, false, 0, 0, 0⟩

/-- The zone a voice plays (R82). -/
def State.zoneOf (s : State) (v : Voice) : ZoneEntry := s.wave.zones[v.zone]?.getD ZoneEntry.empty

/-- The refill condition (R115). -/
def refillNeeded (v : Voice) (b : Buffer) : Bool :=
  v.refillable && b.samples.length ≤ 64 && !b.inFlight && !b.endFetched

/-- The refill condition of a voice is examined (R115). -/
def State.examineRefill (i : VoiceIx) (s : State) : State :=
  s.onWave fun w => { w with
    buffers := updateAt i (fun b => { b with requesting := refillNeeded s.voice.voices[i] b }) w.buffers }

/-! ### The port arbiter (R119) -/

/-- The read a load makes next (R110): the header, or up to eight entries. -/
def Load.nextRead (l : Load) : Nat × Nat :=
  match l.zoneCount with
  | none => (0, 8)
  | some _ => (8 + 16 * l.done, 16 * min 8 (l.total - l.done))

/-- The requesting voice with the fewest samples held, the lowest-numbered among equals (R119). -/
def WaveUnit.neediest (w : WaveUnit) : Option VoiceIx :=
  allVoices.foldl (fun best i =>
    if w.buffers[i].requesting then
      match best with
      | none => some i
      | some j => if w.buffers[i].samples.length < w.buffers[j].samples.length then some i else best
    else best) none

/-- A fetch for a voice is started on the port (R116). -/
def State.startFetch (i : VoiceIx) (s : State) : State :=
  let v := s.voice.voices[i]
  let z := s.zoneOf v
  let b := s.wave.buffers[i]
  s.onWave fun w => { w with
    port := some (.fetch i v.generation (z.start + 2 * b.fetchPosition) (min 32 (z.length - b.fetchPosition)))
    buffers := updateAt i (fun b => { b with inFlight := true, requesting := false }) w.buffers }

/-- With the port free and work waiting, one transfer is started: the load's read, else the neediest voice's fetch, else
the oldest diagnostic read (R119). -/
def State.arbitrate (s : State) : State :=
  match s.wave.port with
  | some _ => s
  | none =>
    match s.wave.load with
    | some l =>
      if l.waiting then
        s.onWave fun w => { w with
          port := some (.loadRead l.nextRead.1 l.nextRead.2 false), load := some { l with waiting := false } }
      else match s.wave.neediest with
        | some i => s.startFetch i
        | none => s
    | none =>
      match s.wave.neediest with
      | some i => s.startFetch i
      | none =>
        match s.wave.diagnostics with
        | d :: rest => s.onWave fun w => { w with port := some (.diagnostic d.address d.count), diagnostics := rest }
        | [] => s

/-! ### The zone load (R110 to R112) -/

/-- A load begins (R104, R110): every voice is freed, the buffers and the zone table are emptied, and the header read
waits for the port. -/
def State.beginLoad (s : State) : State :=
  (s.freeAllVoices.onWave fun w => { w with zones := [], load := some ⟨none, 0, 0, 0, true⟩ }).arbitrate

/-- A rest learning begins: it collects from the next scan (R21, R186). -/
def State.beginLearning (s : State) : State :=
  s.onScanner fun c => { c with learning := some ⟨0, Vector.replicate 90 ⟨0, 1023, 0⟩⟩ }

/-- A load ends by completion, truncation or BAD_STORE (R111): the table is settled and the summary replaced. Run alone,
its operation ends; in STARTUP the learning step begins. -/
def State.endLoad (summary : LoadSummary) (s : State) : State :=
  let s := s.onWave fun w => { w with load := none, summary := summary }
  let s := s.raiseIf (summary.outcome = .badStore) .waveFault
  match s.link.slot with
  | .running .loadZones => s.endOperation summary.outcome (.load summary)
  | .running .startup => s.beginLearning
  | _ => s

/-- A load read on the port has its data discarded from now on (R112). -/
def Transfer.discard : Transfer → Transfer
  | .loadRead a n _ => .loadRead a n true
  | t => t

/-- An aborted load (R112): the table is emptied and settled, the summary is ABORTED, and a read in flight finishes with
its data discarded. -/
def State.abortLoad (s : State) : State :=
  (s.onWave fun w => { w with
    zones := [], load := none, summary := ⟨.aborted, none, 0, 0⟩, port := w.port.map Transfer.discard }).arbitrate

/-- A number of bytes, least significant first (R194). -/
def leNat : List Byte → Nat
  | [] => 0
  | b :: rest => b.toNat + 256 * leNat rest

/-- A zone entry read from 16 bytes of the store, when it is valid (R108, 11.8). -/
def zoneEntryOf (bytes : List Byte) : Option ZoneEntry :=
  let at1 := fun n => (bytes.getD n 0).toNat
  let at4 := fun n => leNat ((bytes.drop n).take 4)
  let key := at1 0
  let lo := at1 1
  let hi := at1 2
  let start := at4 4
  let length := at4 8
  let loopStart := at4 12
  match onOffOf (bytes.getD 3 0) with
  | none => none
  | some loop =>
    if key ≤ 87 ∧ 1 ≤ lo ∧ lo ≤ hi ∧ hi ≤ 127 ∧ start + 2 * length ≤ Config.storeBytes ∧ (loop → loopStart < length)
    then some ⟨key, lo, hi, loop, start, length, loopStart⟩ else none

/-- The zone entries of one entry read, each present when valid (R108, R110). -/
def zoneRun : Nat → List Byte → List (Option ZoneEntry)
  | 0, _ => []
  | n + 1, bytes => zoneEntryOf (bytes.take 16) :: zoneRun n (bytes.drop 16)

/-- The header's signature is P, V, W, S (R107). -/
def signatureOk (data : List Byte) : Bool := data.take 4 = [0x50#8, 0x56#8, 0x57#8, 0x53#8]

/-- The outcome of a load whose entries have all been read (R110). -/
def loadOutcome (zoneCount : Nat) : OpOutcome := if zoneCount ≤ Config.maxZones then .complete else .truncated

/-- The header read arrives (R110). -/
def State.headerArrives (data : List Byte) (s : State) : State :=
  if signatureOk data then
    let count := leNat ((data.drop 4).take 4)
    let total := min count Config.maxZones
    if total = 0 then s.endLoad ⟨loadOutcome count, some count, 0, 0⟩
    else s.onWave fun w => { w with load := some ⟨some count, total, 0, 0, true⟩ }
  else s.endLoad ⟨.badStore, none, 0, 0⟩

/-- An entry read arrives (R110): valid entries are appended, the others counted as skipped. -/
def State.entriesArrive (l : Load) (zoneCount : Nat) (data : List Byte) (s : State) : State :=
  let entries := zoneRun (data.length / 16) data
  let valid := entries.filterMap id
  let done := l.done + entries.length
  let skipped := l.skipped + (entries.length - valid.length)
  let s := s.onWave fun w => { w with zones := w.zones ++ valid }
  if l.total ≤ done then s.endLoad ⟨loadOutcome zoneCount, some zoneCount, s.wave.zones.length, skipped⟩
  else s.onWave fun w => { w with load := some { l with done := done, skipped := skipped, waiting := true } }

/-! ### Arrivals -/

/-- The samples of a fetch's bytes: signed 16 bits, low byte first (R107). -/
def samplesOf : List Byte → List Int
  | a :: b :: rest => (half a b).toInt :: samplesOf rest
  | _ => []

/-- A buffer takes the samples of its fetch (R117): they are appended, and the fetch position moves on, at the zone's end
to loop_start or to the mark that the end is fetched. -/
def Buffer.take (z : ZoneEntry) (samples : List Int) (b : Buffer) : Buffer :=
  let position := b.fetchPosition + samples.length
  let b := { b with samples := b.samples ++ samples, inFlight := false }
  if z.length ≤ position then
    if z.loop then { b with fetchPosition := z.loopStart } else { b with fetchPosition := position, endFetched := true }
  else { b with fetchPosition := position }

/-- The samples of a fetch enter a voice's buffer (R117). -/
def State.storeFetch (i : VoiceIx) (data : List Byte) (s : State) : State :=
  s.onWave fun w => { w with buffers := updateAt i (Buffer.take (s.zoneOf s.voice.voices[i]) (samplesOf data)) w.buffers }

/-- The voice's buffer now holds what the priming report asks for, and no report has been made (R95, R117). -/
def State.primingDue (i : VoiceIx) (s : State) : Bool :=
  !s.voice.voices[i].primed && (32 ≤ s.wave.buffers[i].samples.length || s.wave.buffers[i].endFetched)

/-- A voice fetch arrives with its tag matching (R117). -/
def State.fetchTaken (i : VoiceIx) (data : List Byte) (s : State) : State :=
  let s := s.storeFetch i data
  let s := if s.primingDue i then s.primingReport i else s
  s.examineRefill i

/-- The port becomes free and the arbiter makes its next choice (R119). -/
def State.freePort (s : State) : State := (s.onWave fun w => { w with port := none }).arbitrate

end Sys2Proof.Machine
end

