-- ==== Sys2Proof/Machine/Voices.lean ====
section
/-! DEFINITION. The Voice Engine's work (05_voice_engine.md): the stages of a STRIKE, RELEASE, the envelope and the output of one voice. -/

namespace Sys2Proof.Machine

/-- The live gate is open (R84). -/
def State.gateOpen (s : State) : Bool := !(s.rail.state = .opened && !s.voice.acousticLayer)

/-- The zone table is loading (R87). -/
def State.loading (s : State) : Bool := s.wave.load.isSome

/-- The una corda depth of a source (R88). -/
def State.depthOf (s : State) (source : Source) : Nat :=
  match source with
  | .live => s.pedals.live.u
  | .playback => s.pedals.playback.u

/-- The sounding level of a level under a depth (R88). -/
def soundingLevel (level u : Nat) : Nat := max 1 (clamp 1 127 level * (256 - u) / 256)

/-- The wave zone of a key and a sounding level: the first entry that matches (R89). -/
def zoneFor (zones : List ZoneEntry) (key : Key) (level : Nat) : Option Nat :=
  zones.findIdx? fun z => z.key = key.val && z.levelLo ≤ level && level ≤ z.levelHi

/-- A voice is one of the key's voices of a source in use (R90). -/
def Voice.isFor (source : Source) (key : Key) (v : Voice) : Bool := v.inUse && v.source = source && v.key = key

/-- Stage 5 (R90): of the key's voices of the source, a FADING one is freed and any other becomes FADING. -/
def State.restrike (source : Source) (key : Key) (s : State) : State :=
  let old := s.voice.voices
  (s.onVoice fun e => { e with
    voices := mapTable (fun v =>
      if v.isFor source key then
        if v.state = .fading then v.freed else { v with state := .fading, hold := .none }
      else v) old }).onWave
    fun w => { w with
      buffers := mapTableIx (fun i b => if old[i].isFor source key && old[i].state = .fading then Buffer.reset else b)
        w.buffers }

/-- The first candidate with the least cost, the lowest-numbered among equals (R92). -/
def leastOf (candidate : VoiceIx → Bool) (cost : VoiceIx → Nat) : Option VoiceIx :=
  allVoices.foldl (fun best i =>
    if candidate i then
      match best with
      | none => some i
      | some j => if cost i < cost j then some i else best
    else best) none

/-- The victim of a steal (R92): the FADING voice with the lowest e, else the DAMPING voice with the lowest e, else the
PRIMING or SOUNDING voice with the earliest start stamp, which is the one of the greatest age. -/
def State.victim (s : State) : VoiceIx :=
  let v := fun i : VoiceIx => s.voice.voices[i]
  match leastOf (fun i => (v i).state = .fading) (fun i => (v i).e) with
  | some i => i
  | none =>
    match leastOf (fun i => (v i).state = .damping) (fun i => (v i).e) with
    | some i => i
    | none => (leastOf (fun i => (v i).state = .priming || (v i).state = .sounding)
        (fun i => 4294967295 - ageOf s.perfClock (v i).start)).getD 0

/-- Stage 6 (R91): the lowest-numbered FREE voice, else a stolen victim, freed at once. -/
def State.takeVoice (s : State) : VoiceIx × State :=
  match allVoices.find? fun i => s.voice.voices[i].state = .free with
  | some i => (i, s)
  | none => (s.victim, s.freeVoice s.victim)

/-- Stage 7 (R93), with the buffer's start (R114): a zone with loop off and length 0 is primed at the allocation. -/
def State.startVoice (i : VoiceIx) (source : Source) (key : Key) (level zone : Nat) (s : State) : State :=
  let s := s.onVoice fun e => { e with
    voices := updateAt i (fun v =>
      { v with
        state := .priming, key := key, source := source, level := level, gain := gainOf level, zone := zone
        position := 0, e := 65535, release := 64, start := s.perfClock, generation := v.generation + 1, primed := false
        hold := .none }) e.voices }
  let z := s.zoneOf s.voice.voices[i]
  let ended := !z.loop && z.length = 0
  let s := s.onWave fun w => { w with buffers := w.buffers.set i { Buffer.reset with endFetched := ended } }
  let s := if ended then s.primingReport i else s
  (s.examineRefill i).arbitrate

/-- A STRIKE request is taken through its stages (R86). -/
def State.takeStrike (source : Source) (key : Key) (level : Byte) (s : State) : State :=
  if source = .live && !s.gateOpen then s
  else if s.loading then s.onVoice fun e => { e with notReady := bump e.notReady }
  else
    let sounding := soundingLevel level.toNat (s.depthOf source)
    match zoneFor s.wave.zones key sounding with
    | none => s.onVoice fun e => { e with noZone := bump e.noZone }
    | some zone =>
      let (i, s) := (s.restrike source key).takeVoice
      s.startVoice i source key sounding zone

/-- A RELEASE request is taken (R97): its release level goes to the key's voice of the source that is not FADING. -/
def State.takeRelease (source : Source) (key : Key) (level : Byte) (s : State) : State :=
  s.onVoice fun e => { e with
    voices := mapTable (fun v =>
      if v.isFor source key && v.state != .fading then { v with release := min 127 level.toNat } else v) e.voices }

/-- The requests a source has handed over (R83). -/
def VoiceEngine.requests (source : Source) (v : VoiceEngine) : List NoteRequest :=
  match source with
  | .live => v.liveRequests
  | .playback => v.playbackRequests

/-- The oldest request of a source leaves its list. -/
def VoiceEngine.dropRequest (source : Source) (v : VoiceEngine) : VoiceEngine :=
  match source with
  | .live => { v with liveRequests := v.liveRequests.tail }
  | .playback => { v with playbackRequests := v.playbackRequests.tail }

/-- The damping rate (R99). -/
def dampingRate (release lift : Nat) : Nat := (2048 + 32 * release) * (255 - lift) / 255

/-- One envelope step (R98, R100). -/
def envelopeStep (lift : Nat) (v : Voice) : Voice :=
  match v.state with
  | .damping => { v with e := v.e - v.e * dampingRate v.release lift / 65536 }
  | .fading => { v with e := v.e - v.e * 16384 / 65536 }
  | _ => v

/-- What an envelope tick does to one voice's record (R98): hold test, envelope step, and freeing below 64. -/
def State.tickVoice (s : State) (v : Voice) : Voice :=
  match v.state with
  | .free => v
  | .priming => v
  | _ =>
    let v := if v.state = .fading then v else s.holdTest v
    let v := envelopeStep s.pedals.mergedLift v
    if v.e < 64 then v.freed else v

/-- An envelope tick over the voice table (R98); the buffers of the voices it frees are emptied (R101, R113). -/
def State.envelope (s : State) : State :=
  let old := s.voice.voices
  let new := mapTable s.tickVoice old
  (s.onVoice fun e => { e with voices := new }).onWave fun w => { w with
    buffers := mapTableIx (fun i b => if old[i].inUse && !new[i].inUse then Buffer.reset else b) w.buffers }

/-- A voice gives output in a frame (R102). -/
def Voice.givesOutput (v : Voice) : Bool :=
  match v.state with
  | .sounding => true
  | .damping => true
  | .fading => v.primed
  | _ => false

/-- The output of a sample (R102). R102's formula is followed where its worked table differs by one
(notes/assumptions/27.md). -/
def voiceOutput (w : Int) (gain e : Nat) : Int := (w * gain * e).tdiv 1048576

/-- The position after the sample at a position has been taken (R103, R118). -/
def nextPosition (z : ZoneEntry) (position : Nat) : Nat :=
  if z.loop && z.length ≤ position + 1 then z.loopStart else position + 1

/-- What an audio frame does to one voice (R102, R103, R118, R121): its output, its record, its buffer, and whether it
counts an underrun. -/
def frameVoice (z : ZoneEntry) (v : Voice) (b : Buffer) : Int × Voice × Buffer × Bool :=
  if v.givesOutput then
    match b.samples with
    | [] => if b.endFetched then (0, v.freed, Buffer.reset, false) else (0, v, b, true)
    | w :: rest =>
      let v' := { v with position := nextPosition z v.position }
      if rest.isEmpty && b.endFetched then (voiceOutput w v.gain v.e, v'.freed, Buffer.reset, false)
      else
        let b := { b with samples := rest }
        (voiceOutput w v.gain v.e, v', { b with requesting := refillNeeded v' b }, false)
  else (0, v, b, false)

end Sys2Proof.Machine
end

