-- ==== Sys2Proof/Machine/Audio.lean ====
section
/-! DEFINITION. The Audio Port's work (07_audio_port_and_output_mixing.md): panning, buses, channels, slots, gain ramps, and one audio frame. -/

namespace Sys2Proof.Machine

/-- The pan position of a key (R127). -/
def panOf (key : Key) : Nat := key.val * 128 / 88

/-- The left share of a voice output (R127). -/
def leftShare (v : Int) (key : Key) : Int := (v * (128 - panOf key : Nat)).tdiv 128

/-- The right share of a voice output (R127). -/
def rightShare (v : Int) (key : Key) : Int := (v * panOf key).tdiv 128

/-- The sum of one side's shares over the voices of a source, before saturation (R127, R128). -/
def busSum (source : Source) (share : Int → Key → Int) (voices : Vector Voice 96) (outputs : Vector Int 96) : Int :=
  allVoices.foldl (fun sum i => if voices[i].source = source then sum + share outputs[i] voices[i].key else sum) 0

/-- The four buses of a frame (R127, R128). -/
def busesOf (voices : Vector Voice 96) (outputs : Vector Int 96) : Buses where
  liveL := saturate (busSum .live leftShare voices outputs)
  liveR := saturate (busSum .live rightShare voices outputs)
  playL := saturate (busSum .playback leftShare voices outputs)
  playR := saturate (busSum .playback rightShare voices outputs)

/-- One side of a channel from its two buses, with the current gains (R129). -/
def channelSide (g : ChannelGains) (live playback : Int) : Int :=
  saturate ((live * g.live.current).tdiv 128 + (playback * g.playback.current).tdiv 128)

/-- The gains of a channel (R124). -/
def AudioPort.gains (c : Channel) (a : AudioPort) : ChannelGains :=
  match c with
  | .hp1 => a.hp1
  | .hp2 => a.hp2
  | .line => a.line

/-- The port with one channel's gains changed (R131). -/
def AudioPort.onGains (c : Channel) (f : ChannelGains → ChannelGains) (a : AudioPort) : AudioPort :=
  match c with
  | .hp1 => { a with hp1 := f a.hp1 }
  | .hp2 => { a with hp2 := f a.hp2 }
  | .line => { a with line := f a.line }

/-- The value a routing entry takes (R132). -/
def AudioPort.routed (a : AudioPort) (b : Buses) (r : Route) : Int :=
  match r with
  | .off => 0
  | .out c .left => channelSide (a.gains c) b.liveL b.playL
  | .out c .right => channelSide (a.gains c) b.liveR b.playR

/-- One step of a gain's ramp (R130). -/
def Gain.ramp (g : Gain) : Gain :=
  if g.current < g.target then { g with current := g.current + 1 }
  else if g.target < g.current then { g with current := g.current - 1 }
  else g

/-- One step of both ramps of a channel (R130). -/
def ChannelGains.ramp (g : ChannelGains) : ChannelGains := ⟨g.live.ramp, g.playback.ramp⟩

/-- The port's part of an audio frame (R126): the values mixed at the frame before are sent (R125), the buses, channels
and slots are mixed, and the gains ramp. -/
def AudioPort.mix (voices : Vector Voice 96) (outputs : Vector Int 96) (a : AudioPort) : AudioPort :=
  let b := busesOf voices outputs
  { a with
    sent := a.slots
    buses := b
    slots := mapTable (a.routed b) a.routes
    hp1 := a.hp1.ramp
    hp2 := a.hp2.ramp
    line := a.line.ramp }

/-- What the frame does to each voice (R102, R103, R118, R121). -/
def State.frameResults (s : State) : Vector (Int × Voice × Buffer × Bool) 96 :=
  mapTableIx (fun i v => frameVoice (s.zoneOf v) v s.wave.buffers[i]) s.voice.voices

/-- The voice records, the buffers and the underrun count that a frame leaves (R102, R118, R121). -/
def State.storeFrame (results : Vector (Int × Voice × Buffer × Bool) 96) (s : State) : State :=
  (s.onVoice fun e => { e with
    voices := mapTable (fun r => r.2.1) results
    underrun := min Config.counterMax (e.underrun + (results.toList.filter fun r => r.2.2.2).length) }).onWave fun w =>
      { w with buffers := mapTable (fun r => r.2.2.1) results }

/-- An audio frame (R126). The requests it makes are put to the arbiter when every voice has been taken
(notes/assumptions/22.md). -/
def State.audioFrame (s : State) : State :=
  ((s.onAudio (AudioPort.mix s.voice.voices (mapTable (fun r => r.1) s.frameResults))).storeFrame s.frameResults).arbitrate

/-- The 32 bits of a slot on the data line, first bit first (R125): the 24 bits of its value in two's complement, most
significant first, and eight 0s. -/
def slotBits (value : Int) : List Bool :=
  ((List.range 24).map fun n => (BitVec.ofInt 24 value).getMsbD n) ++ List.replicate 8 false

/-- The 256 bits of the latest frame on the data line, slot 0 first (R125). -/
def AudioPort.frameBits (a : AudioPort) : List Bool := a.sent.toList.flatMap slotBits

/-- The frame clock over the 256 bits of a frame (R125): a pulse one bit wide at the first bit of slot 0. -/
def frameClockBits : List Bool := true :: List.replicate 255 false

/-- A frame sent while the part is held in reset: every slot is 0 (R125). -/
def State.silentFrame (s : State) : State := s.onAudio fun a => { a with sent := Vector.replicate 8 0 }

end Sys2Proof.Machine
end

