-- ==== Sys2Proof/Machine/Playback.lean ====
section
/-! DEFINITION. The Practice Player's own work (09_practice_player.md): passage store, tempo, segment loading, firing runs, wait mode, the playback clearing and halts. -/

namespace Sys2Proof.Machine

/-! ### The passage store (R151) -/

/-- The record of a slot after part reset: NOP with delta 0 (R151). -/
def nopRecord : Record := ⟨0, 0, 0, 0⟩

/-- The record a slot holds (R151): an unlisted slot holds the reset record. -/
def passageAt (store : List (Nat × Record)) (slot : Nat) : Record := ((store.find? (·.1 = slot)).map (·.2)).getD nopRecord

/-- One slot written. -/
def passageWrite (slot : Nat) (rec : Record) : List (Nat × Record) → List (Nat × Record)
  | [] => if rec = nopRecord then [] else [(slot, rec)]
  | (j, r) :: rest =>
    if slot < j then (if rec = nopRecord then (j, r) :: rest else (slot, rec) :: (j, r) :: rest)
    else if slot = j then (if rec = nopRecord then rest else (j, rec) :: rest)
    else (j, r) :: passageWrite slot rec rest

/-- A run of slots written, from a start slot (R152). -/
def passageWriteRun (start : Nat) : List Record → List (Nat × Record) → List (Nat × Record)
  | [], store => store
  | r :: rest, store => passageWriteRun (start + 1) rest (passageWrite start r store)

/-- The slots of a store rise strictly from a bound on. -/
def passageRising : Nat → List (Nat × Record) → Bool
  | _, [] => true
  | low, (j, r) :: rest => low ≤ j && r != nopRecord && passageRising (j + 1) rest

/-- The canonical form of the passage store: slots strictly rising, none beyond the last, no entry equal to the reset
record. -/
def passageWf (store : List (Nat × Record)) : Bool :=
  passageRising 0 store && store.all fun e => e.1 < Config.passageSlots

/-! ### Hands, tempo, clearing -/

/-- A key sounds in a segment's hands by the split key (R156). -/
def handsSound (hands : Hands) (split key : Key) : Bool :=
  match hands with
  | .both => true
  | .left => key < split
  | .right => split ≤ key
  | .none => false

/-- The working copy's segment; a player that plays has one. -/
def Player.segment (p : Player) : Segment := (p.copy.map (·.2)).getD ⟨0, 0, 1, 100, .none, false, none⟩

/-- A key sounds in the working copy (R156). -/
def Player.sounds (p : Player) (key : Key) : Bool := handsSound p.segment.hands p.split key

/-- The effective tempo of a segment tempo under a master tempo (R158). -/
def effectiveTempo (tempo master : Nat) : Nat := clamp 25 200 (tempo * master / 100)

/-- The tempo counter's reload value for an effective tempo (R158). -/
def reloadOf (p : Nat) : Nat := 100000 / p

/-- The tempo counter is started or reloaded, from the working copy and master tempo in effect (R158). Without a working
copy the segment tempo is a free value (Config.tempoWithoutCopy), and one more is counted as drawn. -/
def State.reloadTempo (s : State) : State :=
  match s.player.copy with
  | some (_, seg) => s.onPlayer fun p => { p with tempo := some (reloadOf (effectiveTempo seg.tempo p.masterTempo)) }
  | none =>
    { s.onPlayer fun p => { p with
        tempo := some (reloadOf (effectiveTempo (Config.tempoWithoutCopy s.draws) p.masterTempo)) } with
      draws := s.draws + 1 }

/-- A PLAYBACK note is handed to the Voice Engine and offered to the recorder as a played event (R83, R138, R163). -/
def State.handPlayback (n : NoteRequest) (s : State) : State :=
  let e : RecorderEvent := match n with
    | .strike k l => .strike k l
    | .release k l => .release k l
  (s.onVoice fun v => { v with playbackRequests := v.playbackRequests ++ [n] }).offer .playback e

/-- The playback clearing (R166): a RELEASE of level 64 for each held key in ascending order, the key sets emptied, the
playback pedals at rest, the tempo counter stopped, countdown and carried gap 0. -/
def State.playbackClearing (s : State) : State :=
  let s := s.player.held.foldl (fun s k => s.handPlayback (.release k 64)) s
  let s := s.onPlayer fun p => { p with held := [], expected := [], tempo := none, countdown := 0, gap := 0 }
  s.clearPlaybackPedals

/-- Play ends (R166). -/
def State.playEnds (s : State) : State :=
  (s.playbackClearing.raise .playEnd).onPlayer fun p => { p with state := .idle }

/-- The player halts with a reason, given as the halted state (R172). -/
def State.playerHalts (halted : PlayerState) (s : State) : State :=
  (s.playbackClearing.raise .playHalt).onPlayer fun p => { p with state := halted }

/-! ### Segments and ranges -/

/-- A range begins (R162). The flag says that a range of this firing run has had its countdown set to 0; a second one
gets a countdown of 1. It answers the flag for the rest of the run. -/
def State.beginRange (zeroBegun : Bool) (s : State) : State × Bool :=
  let p := s.player
  let seg := p.segment
  let number : Byte := match p.copy with
    | some (n, _) => BitVec.ofNat 8 n
    | none => 0
  let s := s.offerMark number (BitVec.ofNat 8 p.pass)
  let countdown := (passageAt p.passage seg.start).delta.toNat + p.gap
  let set := if countdown = 0 && zeroBegun then 1 else countdown
  (s.onPlayer fun p => { p with slot := seg.start, satisfied := none, countdown := set, gap := 0 },
    zeroBegun || countdown = 0)

/-- A load (R161): the next segment is examined, and empty segments are skipped in the same event. 32 skips halt the
player, so the fuel of loadFuel is never used up. That a chain of all 32 segments, each empty, whose last names END halts
at its 32nd skip, where R161 also says that such a chain ends play, is the model's choice (notes/assumptions/31.md). -/
def State.loadSegment (zeroBegun : Bool) : Nat → State → State × Bool
  | 0, s => (s, zeroBegun)
  | fuel + 1, s =>
    match s.player.next with
    | none => (s.playEnds, zeroBegun)
    | some n =>
      let seg := s.player.segments[n]
      if seg.count = 0 then
        let s := s.onPlayer fun p => { p with skips := p.skips + 1, next := seg.next }
        if 32 ≤ s.player.skips then (s.playerHalts .haltedChainEmpty, zeroBegun)
        else State.loadSegment zeroBegun fuel s
      else
        (s.onPlayer fun p => { p with
          copy := some (n, seg), skips := 0, next := seg.next, pass := 1
          repsLeft := if seg.repeats = 0 then .endless else .left seg.repeats }).beginRange zeroBegun

/-- More than the 32 skips a load can make. -/
def loadFuel : Nat := 33

/-- A range ends (R165): a new pass begins, or the next segment is loaded. -/
def State.endRange (zeroBegun : Bool) (s : State) : State × Bool :=
  match s.player.repsLeft with
  | .endless => (s.onPlayer fun p => { p with pass := min 255 (p.pass + 1) }).beginRange zeroBegun
  | .left n =>
    if 1 < n then
      (s.onPlayer fun p => { p with repsLeft := .left (n - 1), pass := min 255 (p.pass + 1) }).beginRange zeroBegun
    else (s.onPlayer fun p => { p with repsLeft := .left 0 }).loadSegment zeroBegun loadFuel

/-! ### Firing -/

/-- What a fired record does (R163): none when it halts the player with BAD_EVENT. That a PEDAL sostenuto record is
recorded with its own value byte, also above 1, is the model's choice (notes/assumptions/32.md). -/
def State.fireRecord (r : Record) (s : State) : Option State :=
  match r.kind.toNat with
  | 0 => some s
  | 1 =>
    match keyOf r.key with
    | none => none
    | some k =>
      if s.player.sounds k then
        some ((s.handPlayback (.strike k r.value)).onPlayer fun p => { p with held := insertKey k p.held })
      else some s
  | 2 =>
    match keyOf r.key with
    | none => none
    | some k =>
      if s.player.sounds k || s.player.held.contains k then
        some ((s.handPlayback (.release k r.value)).onPlayer fun p => { p with held := removeKey k p.held })
      else some s
  | 3 =>
    match r.key.toNat with
    | 0 => some ((s.writePlayback .damper r.value.toNat).offer .playback (.pedal .damper r.value))
    | 1 => some ((s.writePlayback .sostenuto r.value.toNat).offer .playback (.pedal .sostenuto r.value))
    | 2 => some ((s.writePlayback .unaCorda r.value.toNat).offer .playback (.pedal .unaCorda r.value))
    | _ => none
  | 4 => some (s.onPlayer fun p => { p with gap := r.key.toNat + 256 * r.value.toNat })
  | 5 => some s
  | 6 => some s
  | _ => none

/-- The key of a STRIKE record in the muted hand (R163, R167). -/
def Player.mutedStrike (p : Player) (r : Record) : Option Key :=
  if r.kind = 1 then
    match keyOf r.key with
    | some k => if p.sounds k then none else some k
    | none => none
  else none

/-- The 16-bit value of a GAP record, 0 of any other (R163). -/
def gapOf (r : Record) : Nat := if r.kind = 4 then r.key.toNat + 256 * r.value.toNat else 0

/-- A wait's lookahead over the slots after the due one (R167): the slots of the range left to examine, the next slot,
its time but for its own delta, the expected-key set so far, and the last slot examined. -/
def Player.lookahead (p : Player) : Nat → Nat → Nat → List Key → Nat → List Key × Nat
  | 0, _, _, set, last => (set, last)
  | left + 1, slot, time, set, last =>
    let r := passageAt p.passage slot
    let time := time + r.delta.toNat
    if 30 < time || 10 ≤ set.length then (set, last)
    else
      let set := match p.mutedStrike r with
        | some k => insertKey k set
        | none => set
      Player.lookahead p left (slot + 1) (time + gapOf r) set slot

/-- The due record begins a wait (R167): its key. -/
def Player.waitKey (p : Player) : Option Key :=
  if p.segment.wait && (match p.satisfied with
      | none => true
      | some through => through < p.slot) then
    p.mutedStrike (passageAt p.passage p.slot)
  else none

/-- A wait begins (R167). -/
def State.beginWait (k : Key) (s : State) : State :=
  let p := s.player
  let seg := p.segment
  let (set, last) := p.lookahead (seg.start + seg.count - 1 - p.slot) (p.slot + 1) 0 [k] p.slot
  (s.onPlayer fun p => { p with expected := set, satisfied := some last, state := .waiting, tempo := none }).raise .playWait

/-- A firing run (R159). Two ranges of at most 8,192 records can fire in one run (R162), so the fuel of runFuel is never
used up. -/
def State.firingRun : Nat → Bool → State → State
  | 0, _, s => s
  | fuel + 1, zeroBegun, s =>
    if s.player.state = .running ∧ s.player.countdown = 0 then
      match s.player.waitKey with
      | some k => s.beginWait k
      | none =>
        match s.fireRecord (passageAt s.player.passage s.player.slot) with
        | none => s.playerHalts .haltedBadEvent
        | some s =>
          let seg := s.player.segment
          if s.player.slot + 1 < seg.start + seg.count then
            State.firingRun fuel zeroBegun (s.onPlayer fun p => { p with
              slot := p.slot + 1
              countdown := (passageAt p.passage (p.slot + 1)).delta.toNat + p.gap
              gap := 0 })
          else
            let (s, zeroBegun) := s.endRange zeroBegun
            State.firingRun fuel zeroBegun s
    else s

/-- More than the records of two ranges. -/
def runFuel : Nat := 16390

/-- A live STRIKE comes to the player (R168): matched while WAITING, ignored in every other state. -/
def State.matchStrike (k : Key) (s : State) : State :=
  if s.player.state = .waiting then
    if s.player.expected.contains k then
      let s := s.onPlayer fun p => { p with expected := removeKey k p.expected }
      if s.player.expected.isEmpty then
        (s.onPlayer fun p => { p with state := .running }).reloadTempo.firingRun runFuel false
      else s
    else s.onPlayer fun p => { p with wrong := bump p.wrong }
  else s

end Sys2Proof.Machine
end

