-- ==== Sys2Proof/Machine/Replies.lean ====
section
/-! DEFINITION. The bytes of the replies (R194 and the tables of chapter 11). Where R194 gives a layout only in general terms, notes/assumptions/14.md says what is built. -/

namespace Sys2Proof.Machine

/-! ### Numbers, optional fields, codes (R194) -/

/-- A one-byte number. -/
def u8 (n : Nat) : List Byte := [BitVec.ofNat 8 n]
/-- A two-byte number, least significant byte first. -/
def u16 (n : Nat) : List Byte := halfBytes (BitVec.ofNat 16 n)
/-- A three-byte number, least significant byte first. -/
def u24 (n : Nat) : List Byte := u16 n ++ u8 (n / 65536)
/-- A four-byte number, least significant byte first. -/
def u32 (n : Nat) : List Byte := longBytes (BitVec.ofNat 32 n)
/-- An on/off, true/false, set/clear or READY/NOT_READY value. -/
def flag (b : Bool) : List Byte := [if b then 1 else 0]
/-- A bus value: three bytes in two's complement. -/
def busBytes (v : Int) : List Byte := u24 (BitVec.ofInt 24 v).toNat
/-- An action-clock stamp: three bytes. -/
def stampBytes (t : Stamp) : List Byte := u24 t.toNat
/-- A performance-clock time: four bytes. -/
def timeBytes (t : Time) : List Byte := longBytes t
/-- An optional field of a number of bytes: a presence byte and the bytes, which are 0 when the field is absent. -/
def opt {α : Type} (size : Nat) (bytes : α → List Byte) : Option α → List Byte
  | some a => 1 :: bytes a
  | none => List.replicate (size + 1) 0
/-- A set of notices: two bytes. -/
def noticeBytes (set : BitVec 11) : List Byte := u16 set.toNat
/-- A set of keys: its member count and its members in ascending order. -/
def keySetBytes (set : List Key) : List Byte := u8 set.length ++ set.map fun k => BitVec.ofNat 8 k.val

/-- Codes of the status byte (11.2). -/
def Status.code : Status → Byte
  | .ok => 0
  | .busy => 1
  | .wrongState => 2
  | .badValue => 3
  | .badLength => 4
  | .unknownKind => 5
  | .notReady => 6

/-- The body of a reply's frame: kind plus 0x80, status, payload (R176, R194). That the sum for an unknown kind of 0x80 or
above, which no byte holds, wraps modulo 256 is the model's choice (notes/assumptions/35.md). -/
def Reply.body (r : Reply) : List Byte := (r.kind + 0x80#8) :: r.status.code :: r.payload

/-- The bytes TXD carries while the dispatcher is SENDING (R176, R180); none otherwise. -/
def State.frameBytes (s : State) : List Byte :=
  match s.link.dispatcher with
  | .sending r _ => if s.inReset then [] else frame r.body
  | _ => []

/-- The ten bits of a character on the link, first bit first (R175): the start bit, eight data bits with the least
significant first, and the stop bit, which reads high. That the start bit is low is DEDUCED from the line resting high
(notes/assumptions/21.md). -/
def characterBits (b : Byte) : List Bool := false :: (List.range 8).map b.getLsbD ++ [true]

/-- The bits TXD carries while the dispatcher is SENDING, character after character with no idle time (R175, R176). -/
def State.frameTxdBits (s : State) : List Bool := s.frameBytes.flatMap characterBits

def Phase.code : Phase → Nat
  | .idle => 0
  | .travel => 1
  | .struck => 2
  | .rearmed => 3

def Zone.code : Zone → Nat
  | .low => 0
  | .mid => 1
  | .high => 2

/-- An end of the rail: OPEN 0, CLOSED 1, in the order of R55. -/
def endCode : RailEnd → Nat
  | .opened => 0
  | .closed => 1

def FaultReason.code : FaultReason → Nat
  | .guard => 0
  | .travelTimeout => 1
  | .switchConflict => 2
  | .drift => 3

def HomingPhase.code : HomingPhase → Nat
  | .waiting => 0
  | .driving => 1

def CalPhase.code : CalPhase → Nat
  | .waitClose => 0
  | .closing => 1
  | .waitOpen => 2
  | .opening => 3

def ReturnKind.code : ReturnKind → Nat
  | .retry => 0
  | .calibration => 1

/-- The rail state: HOMING 0 to FAULT 7 (R194). -/
def RailState.code : RailState → Nat
  | .homing _ => 0
  | .opened => 1
  | .closed => 2
  | .waitQuiet => 3
  | .moving => 4
  | .returning _ => 5
  | .calibrating _ => 6
  | .fault _ => 7

/-- The rail state and its four optional items, each an optional field of its own (R80, R192, R194). -/
def RailState.bytes (st : RailState) : List Byte :=
  u8 st.code
    ++ opt 1 (fun r => u8 (FaultReason.code r)) (match st with | .fault r => some r | _ => none)
    ++ opt 1 (fun p => u8 (HomingPhase.code p)) (match st with | .homing p => some p | _ => none)
    ++ opt 1 (fun p => u8 (CalPhase.code p)) (match st with | .calibrating p => some p | _ => none)
    ++ opt 1 (fun k => u8 (ReturnKind.code k)) (match st with | .returning k => some k | _ => none)

/-- A switch level: ACTIVE 0, INACTIVE 1, in the order of R55. -/
def switchCode (active : Bool) : Nat := if active then 0 else 1

/-- A pin level: low 0, high 1. -/
def levelCode (low : Bool) : Nat := if low then 0 else 1

def VoiceState.code : VoiceState → Nat
  | .free => 0
  | .priming => 1
  | .sounding => 2
  | .damping => 3
  | .fading => 4

def sourceCode : Source → Nat
  | .live => 0
  | .playback => 1

def HoldCause.code : HoldCause → Nat
  | .source => 0
  | .latch => 1
  | .lift => 2
  | .none => 3

/-- Outcomes (R197). -/
def OpOutcome.code : OpOutcome → Nat
  | .none => 0
  | .complete => 1
  | .truncated => 2
  | .badStore => 3
  | .aborted => 4
  | .interrupted => 5
  | .failed => 6

def Operation.code : Operation → Nat
  | .startup => 0
  | .loadZones => 1
  | .learnRest => 2
  | .railCalibrate => 3

def Channel.code : Channel → Nat
  | .hp1 => 1
  | .hp2 => 2
  | .line => 3

def Side.code : Side → Nat
  | .left => 0
  | .right => 1

/-- A routing entry: channel and side, OFF as channel code 0 and side code 0. -/
def Route.bytes : Route → List Byte
  | .off => [0, 0]
  | .out c d => u8 c.code ++ u8 d.code

def BlockName.code : BlockName → Nat
  | .a => 0
  | .b => 1

def BlockState.code : BlockState → Nat
  | .empty => 0
  | .active => 1
  | .ready _ => 2

/-- The source mask, with the codes of RECORD START (11.3). -/
def SourceMask.code : SourceMask → Nat
  | .live => 1
  | .playback => 2
  | .both => 3

def Hands.code : Hands → Nat
  | .both => 0
  | .left => 1
  | .right => 2
  | .none => 3

/-- A next field: 0 to 31, END 255 (11.6). That the player's own next segment is coded so too is the model's choice
(notes/assumptions/33.md). -/
def nextCode : Option (Fin 32) → Nat
  | some n => n.val
  | none => 255

/-- Player states: IDLE 0 to HALTED 4 (R150). -/
def PlayerState.code : PlayerState → Nat
  | .idle => 0
  | .running => 1
  | .waiting => 2
  | .pausedRunning => 3
  | .pausedWaiting => 3
  | .haltedBadEvent => 4
  | .haltedChainEmpty => 4

/-- The player state with its resume state and halt reason (R150, R174). That the resume state is coded by a list of its
own, RUNNING 0 and WAITING 1, is the model's choice (notes/assumptions/34.md). -/
def PlayerState.bytes (st : PlayerState) : List Byte :=
  u8 st.code
    ++ opt 1 u8 (match st with | .pausedRunning => some 0 | .pausedWaiting => some 1 | _ => none)
    ++ opt 1 u8 (match st with | .haltedBadEvent => some 0 | .haltedChainEmpty => some 1 | _ => none)

/-! ### Entries (11.6, 11.7, 11.8) -/

/-- A regulation entry as its fields. -/
def RegEntry.fields (e : RegEntry) : RegFields :=
  ⟨BitVec.ofNat 16 e.rest, BitVec.ofNat 16 e.touchPoint, BitVec.ofNat 16 e.rearmPoint, BitVec.ofNat 16 e.releasePoint,
    BitVec.ofNat 16 e.gapScale, BitVec.ofInt 8 e.trim, if e.enabled then 1 else 0⟩

/-- A segment entry as its fields. -/
def Segment.fields (e : Segment) : SegFields :=
  ⟨BitVec.ofNat 16 e.start, BitVec.ofNat 16 e.count, BitVec.ofNat 8 e.repeats, BitVec.ofNat 8 e.tempo,
    BitVec.ofNat 8 e.hands.code, if e.wait then 1 else 0, BitVec.ofNat 8 (nextCode e.next)⟩

/-- A point of the curve (11.6). -/
def TouchPoint.bytes (p : TouchPoint) : List Byte := u16 p.speed ++ u8 p.level

/-- A key entry of the snapshot (11.7). -/
def KeyRecord.bytes (enabled : Bool) (k : KeyRecord) : List Byte :=
  u8 k.phase.code ++ u8 k.zone.code ++ u16 k.travel ++ flag enabled
    ++ opt 3 stampBytes (k.g2Stamp.map (·.stamp)) ++ opt 3 stampBytes (k.strikeStamp.map (·.stamp))
    ++ opt 3 stampBytes k.prevStrikeStamp ++ u8 k.lastLevel ++ u8 k.lastRelease

/-- The five counters of a key (11.7). -/
def KeyRecord.counterBytes (k : KeyRecord) : List Byte :=
  u16 k.strikes ++ u16 k.missed ++ u16 k.orphan ++ u16 k.rebound ++ u16 k.gateFault

/-- A zone entry in its 16-byte layout (11.8). -/
def ZoneEntry.bytes (z : ZoneEntry) : List Byte :=
  u8 z.key ++ u8 z.levelLo ++ u8 z.levelHi ++ flag z.loop ++ u32 z.start ++ u32 z.length ++ u32 z.loopStart

/-- The load summary: outcome, optional zone count, loaded, skipped (11.8, R197). -/
def LoadSummary.bytes (m : LoadSummary) : List Byte :=
  u8 m.outcome.code ++ opt 4 u32 m.zoneCount ++ u16 m.loaded ++ u16 m.skipped

/-- A voice entry (R106). -/
def Voice.bytes (v : Voice) : List Byte :=
  u8 v.state.code ++ u8 v.key.val ++ u8 (sourceCode v.source) ++ u8 v.level ++ u16 v.gain ++ u16 v.zone ++ u32 v.position
    ++ u16 v.e ++ u8 v.release ++ timeBytes v.start ++ [v.generation] ++ flag v.primed ++ u8 v.hold.code

/-- The rest-learning details: the number, and a list of 8 places with 255 in those left unused (R197). -/
def RestDetails.bytes (d : RestDetails) : List Byte :=
  u8 d.unsettled ++ (d.first8.map (BitVec.ofNat 8) ++ List.replicate 8 255#8).take 8

/-- The details of a result (R197). -/
def Details.bytes : Details → List Byte
  | .nothing => []
  | .load m => m.bytes
  | .rest d => d.bytes
  | .calibration closing opening limit => u16 closing ++ u16 opening ++ u16 limit
  | .railFault r => u8 r.code
  | .startup m d => m.bytes ++ d.bytes

/-! ### Replies -/

/-- GET IDENTITY (R191). -/
def identityBytes : List Byte := u16 Config.partCode ++ u8 Config.siliconRevision ++ u8 Config.protocolVersion

/-- The number of voices that pass a test. -/
def State.countVoices (s : State) (p : Voice → Bool) : Nat := (s.voice.voices.toList.filter p).length

/-- The three voice counters (R105). -/
def VoiceEngine.counterBytes (v : VoiceEngine) : List Byte := u16 v.notReady ++ u16 v.noZone ++ u16 v.underrun

/-- A block in the recorder items (R149). -/
def RecordBlock.statusBytes (b : RecordBlock) : List Byte :=
  u8 b.state.code ++ u8 b.records.length ++ opt 1 (fun q : Byte => [q]) (match b.state with | .ready q => some q | _ => none)

/-- The recorder items (R149). -/
def Recorder.statusBytes (r : Recorder) : List Byte :=
  flag r.recording ++ u8 r.mask.code ++ r.blockA.statusBytes ++ r.blockB.statusBytes ++ [r.sequence] ++ u16 r.lostCount
    ++ opt 4 timeBytes r.firstLost ++ flag (decide (0 < r.lostCount) && r.recoveryPending)

/-- The operation slot's items (R192). -/
def Slot.statusBytes : Slot → List Byte
  | .empty => u8 0 ++ opt 1 u8 none ++ opt 1 u8 none
  | .running op => u8 1 ++ opt 1 u8 (some op.code) ++ opt 1 u8 none
  | .finished op outcome _ => u8 2 ++ opt 1 u8 (some op.code) ++ opt 1 u8 (some outcome.code)

/-- GET STATUS (R192). -/
def State.statusBytes (s : State) : List Byte :=
  timeBytes s.perfClock
    ++ (flag s.scanner.ready ++ u8 s.scanner.flightCount ++ flag s.scanner.quiet)
    ++ (s.rail.state.bytes ++ u8 s.rail.attempts)
    ++ (u8 (s.countVoices Voice.inUse) ++ s.voice.counterBytes)
    ++ (u8 (if s.loading then 0 else 1) ++ u16 s.wave.zones.length ++ u8 s.wave.summary.outcome.code)
    ++ s.recorder.statusBytes
    ++ s.player.state.bytes
    ++ s.link.slot.statusBytes
    ++ (noticeBytes s.pendingNotices ++ noticeBytes s.link.maskSet)
    ++ u8 s.link.queue.length
    ++ (u16 s.link.badCheck ++ u16 s.link.framing ++ u16 s.link.overrun)

/-- The keys of a run, in key order. -/
def keysOf (first count : Nat) : List Key := allKeys.filter fun k => first ≤ k.val && k.val < first + count

/-- The voices of a run, in voice order. -/
def voicesOf (first count : Nat) : List VoiceIx := allVoices.filter fun i => first ≤ i.val && i.val < first + count

/-- GET KEY STATE (R24, 11.7): the enable setting is that of the entry in effect (R23). -/
def State.keyStateBytes (first count : Nat) (s : State) : List Byte :=
  flag s.scanner.ready ++ u8 s.scanner.flightCount ++ flag s.scanner.quiet ++ opt 3 stampBytes s.scanner.lastLanding
    ++ (keysOf first count).flatMap fun k => s.scanner.keys[k].bytes s.touch.inEffect[k].enabled

/-- GET PEDAL STATE (R54). -/
def PedalUnit.statusBytes (p : PedalUnit) : List Byte :=
  u16 p.mapInEffect.contact ++ u16 p.mapInEffect.full ++ u16 p.damperRestInEffect ++ u16 p.unaCordaRestInEffect
    ++ u16 p.damperTravel ++ u16 p.unaCordaTravel ++ u16 p.sostenutoRaw
    ++ (u8 p.live.lift ++ flag p.live.sostenuto ++ u8 p.live.unaCorda ++ u8 p.live.u)
    ++ (u8 p.playback.lift ++ flag p.playback.sostenuto ++ u8 p.playback.unaCorda ++ u8 p.playback.u)
    ++ (u8 p.mergedLift ++ flag p.mergedSostenuto ++ u8 p.latch.length)

/-- GET RAIL STATE (R80). -/
def State.railBytes (s : State) : List Byte :=
  let r := s.rail
  r.state.bytes ++ u8 (endCode r.target) ++ opt 1 (fun e => u8 (endCode e)) r.origin ++ u8 r.attempts
    ++ opt 2 (fun d : Drive => u8 (endCode d.toward) ++ u8 d.duty) r.drive ++ u8 r.travelDuty
    ++ opt 2 u16 r.moveTimer ++ u16 r.travelLimit ++ opt 2 u16 r.closingTime ++ opt 2 u16 r.openingTime
    ++ u8 (switchCode r.switchOpen.on) ++ u8 (switchCode r.switchClosed.on) ++ u8 (levelCode r.guardLow)
    ++ flag s.scanner.quiet

/-- GET VOICE STATE (R106). -/
def State.voiceBytes (first count : Nat) (s : State) : List Byte :=
  u8 (s.countVoices Voice.inUse)
    ++ u8 (s.countVoices fun v => v.state = .free) ++ u8 (s.countVoices fun v => v.state = .priming)
    ++ u8 (s.countVoices fun v => v.state = .sounding) ++ u8 (s.countVoices fun v => v.state = .damping)
    ++ u8 (s.countVoices fun v => v.state = .fading)
    ++ u8 (s.countVoices fun v => v.inUse && v.source = .live) ++ u8 (s.countVoices fun v => v.inUse && v.source = .playback)
    ++ s.voice.counterBytes ++ flag s.voice.acousticLayer ++ flag s.gateOpen ++ flag s.loading
    ++ (voicesOf first count).flatMap fun i => s.voice.voices[i].bytes

/-- GET ZONE (R123, 11.8). -/
def WaveUnit.zoneBytes (first count : Nat) (w : WaveUnit) : List Byte :=
  u16 w.zones.length ++ w.summary.bytes ++ ((w.zones.drop first).take count).flatMap ZoneEntry.bytes

/-- The gains of a channel (R134). -/
def ChannelGains.bytes (g : ChannelGains) : List Byte :=
  u8 g.live.target ++ u8 g.live.current ++ u8 g.playback.target ++ u8 g.playback.current

/-- GET OUTPUT (R134). -/
def AudioPort.statusBytes (a : AudioPort) : List Byte :=
  a.hp1.bytes ++ a.hp2.bytes ++ a.line.bytes ++ a.routes.toList.flatMap Route.bytes
    ++ busBytes a.buses.liveL ++ busBytes a.buses.liveR ++ busBytes a.buses.playL ++ busBytes a.buses.playR

/-- READ RECORD BLOCK (R147, 11.5). -/
def RecordBlock.bytes (name : BlockName) (sequence : Byte) (b : RecordBlock) : List Byte :=
  u8 name.code ++ [sequence] ++ u8 b.records.length ++ b.records.flatMap Record.bytes

/-- The records of a run of slots, in slot order (R153). -/
def passageRun (store : List (Nat × Record)) (start count : Nat) : List Record :=
  (List.range count).map fun i => passageAt store (start + i)

/-- Repetitions left: one byte; the code of ENDLESS is a free value (notes/assumptions/2.md). -/
def Repetitions.bytes : Repetitions → List Byte
  | .endless => [Config.endlessCode]
  | .left n => u8 n

/-- The effective tempo of the next reload, or 0 when the working copy is absent (R174). -/
def Player.nextTempo (p : Player) : Nat :=
  match p.copy with
  | some (_, seg) => effectiveTempo seg.tempo p.masterTempo
  | none => 0

/-- GET PLAY STATUS (R174); a next segment of END is 255 (notes/assumptions/33.md). -/
def Player.statusBytes (p : Player) : List Byte :=
  p.state.bytes
    ++ opt 10 (fun c : Fin 32 × Segment => u8 c.1.val ++ c.2.fields.bytes) p.copy
    ++ u8 (nextCode p.next)
    ++ (u16 p.slot ++ u24 p.countdown ++ u16 p.gap ++ p.repsLeft.bytes ++ u8 p.pass)
    ++ opt 2 u16 p.satisfied
    ++ (u8 p.skips ++ u8 p.nextTempo ++ u8 p.split.val ++ u8 p.masterTempo)
    ++ (keySetBytes p.expected ++ u8 p.held.length ++ u16 p.wrong)

/-- GET OPERATION RESULT (R197): operation, outcome, details. -/
def resultBytes (op : Operation) (outcome : OpOutcome) (details : Details) : List Byte :=
  u8 op.code ++ u8 outcome.code ++ details.bytes

end Sys2Proof.Machine
end

