-- ==== Sys2Proof/Machine/Serve.lean ====
section
/-! DEFINITION. What serving a request answers, and the replies of the dispatcher (R180, R181). -/

namespace Sys2Proof.Machine

/-- What the owning block makes of a request: a reply with its status, its payload and the state after it, or the state in
which the dispatcher waits for a diagnostic read (R180). -/
inductive Served where
  | reply (status : Status) (payload : List Byte) (s : State)
  | waiting (s : State)

/-- Accepted, with nothing to return: OK. -/
def Served.ok (s : State) : Served := .reply .ok [] s

/-- Accepted, returning a payload: OK. -/
def Served.give (payload : List Byte) (s : State) : Served := .reply .ok payload s

/-- Refused: no state of any block changes and the reply carries no payload (R181). -/
def Served.refuse (status : Status) (s : State) : Served := .reply status [] s

/-- The dispatcher moves to SENDING with a reply (R180). -/
def State.answer (reply : Reply) (thenReset : Bool) (s : State) : State :=
  s.onLink fun l => { l with dispatcher := .sending reply thenReset }

/-- The dispatcher moves on with what the owning block made of a request of a kind (R180). -/
def State.conclude (kind : Byte) (thenReset : Bool) : Served → State
  | .reply status payload s => s.answer ⟨kind, status, payload⟩ thenReset
  | .waiting s => s.onLink fun l => { l with dispatcher := .serving }

end Sys2Proof.Machine
end

