-- ==== Sys2Proof/Machine/ActionRequests.lean ====
section
/-! DEFINITION. The requests of the Action Scanner, the Touch Unit, the Pedal Unit and the Rail Controller (chapters 1 to 4). -/

namespace Sys2Proof.Machine

/-- GET KEY STATE (R24). -/
def serveGetKeyState (first count : Byte) (s : State) : Served :=
  if runOk 1 12 88 first.toNat count.toNat then .give (s.keyStateBytes first.toNat count.toNat) s
  else .refuse .badValue s

/-- The five counters at 0 (R25). -/
def KeyRecord.clearCounters (k : KeyRecord) : KeyRecord :=
  { k with strikes := 0, missed := 0, orphan := 0, rebound := 0, gateFault := 0 }

/-- A number lies in a run. -/
def inRun (first count n : Nat) : Bool := first ≤ n && n < first + count

/-- GET KEY COUNTERS: the counters of the run are returned and set to 0 (R25). -/
def serveGetKeyCounters (first count : Byte) (s : State) : Served :=
  if runOk 1 24 88 first.toNat count.toNat then
    .give ((keysOf first.toNat count.toNat).flatMap fun k => s.scanner.keys[k].counterBytes)
      (s.onScanner fun c => { c with
        keys := mapTableIx (fun k r => if inRun first.toNat count.toNat k.val then r.clearCounters else r) c.keys })
  else .refuse .badValue s

/-- The table with a run of entries written, in order from the first (R27). -/
def writeRun (first : Nat) (entries : List RegEntry) (table : Vector RegEntry 88) : Vector RegEntry 88 :=
  mapTableIx (fun k e => if inRun first entries.length k.val then entries.getD (k.val - first) e else e) table

/-- SET REGULATION: checked in full before anything is written (R27). -/
def serveSetRegulation (first count : Byte) (entries : List RegFields) (s : State) : Served :=
  if runOk 1 16 88 first.toNat count.toNat then
    match allOf (entries.map regEntryOf) with
    | some entries => .ok (s.onTouch fun t => { t with table := writeRun first.toNat entries t.table })
    | none => .refuse .badValue s
  else .refuse .badValue s

/-- GET REGULATION: the first key and the count, then the entries as the table holds them (R29, 11.6). -/
def serveGetRegulation (first count : Byte) (s : State) : Served :=
  if runOk 1 16 88 first.toNat count.toNat then
    .give ([first, count] ++ (keysOf first.toNat count.toNat).flatMap fun k => s.touch.table[k].fields.bytes) s
  else .refuse .badValue s

/-- SET TOUCH CURVE (R34). -/
def serveSetTouchCurve (points : Vector CurvePoint 9) (s : State) : Served :=
  match curveOf points with
  | some curve => .ok (s.onTouch fun t => { t with curve := curve })
  | none => .refuse .badValue s

/-- GET TOUCH CURVE (R36). -/
def serveGetTouchCurve (s : State) : Served := .give (s.touch.curve.toList.flatMap TouchPoint.bytes) s

/-- GET PEDAL STATE (R54). -/
def serveGetPedalState (s : State) : Served := .give s.pedals.statusBytes s

/-- SET PEDAL MAP (R45). -/
def serveSetPedalMap (contact full : Half) (s : State) : Served :=
  if contact.toNat < full.toNat ∧ full.toNat ≤ 1023 then
    .ok (s.onPedals fun p => { p with map := ⟨contact.toNat, full.toNat⟩ })
  else .refuse .badValue s

/-- A move is set up from an end to the other (R61): WAIT_QUIET, with the grant taken at once when the action is quiet. -/
def State.setUpMove (target origin : RailEnd) (s : State) : State :=
  (s.onRail fun r => { r.rest .waitQuiet with target := target, origin := some origin, attempts := 0 }).quietGrant

/-- SET RAIL MODE (R61). -/
def serveSetRailMode (code : Byte) (s : State) : Served :=
  match railEndOf code with
  | none => .refuse .badValue s
  | some e =>
    match s.rail.state, e with
    | .opened, .opened => .ok s
    | .opened, .closed => .ok (s.setUpMove .closed .opened)
    | .closed, .closed => .ok s
    | .closed, .opened => .ok (s.setUpMove .opened .closed)
    | .waitQuiet, e => if e = s.rail.target then .ok s else .ok (s.onRail (Rail.rest (restingAt e)))
    | .fault _, _ => .refuse .wrongState s
    | _, _ => .refuse .busy s

/-- CLEAR RAIL FAULT (R72). -/
def serveClearRailFault (s : State) : Served :=
  match s.rail.state with
  | .fault _ => if s.rail.guardLow then .refuse .wrongState s else .ok s.enterHoming
  | _ => .refuse .wrongState s

/-- SET RAIL DRIVE (R79). -/
def serveSetRailDrive (duty : Byte) (s : State) : Served :=
  if 30 ≤ duty.toNat ∧ duty.toNat ≤ 100 then .ok (s.onRail fun r => { r with travelDuty := duty.toNat })
  else .refuse .badValue s

/-- GET RAIL STATE (R80). -/
def serveGetRailState (s : State) : Served := .give s.railBytes s

end Sys2Proof.Machine
end

