-- ==== Sys2Proof/Machine/Sensing.lean ====
section
/-! DEFINITION. The Action Scanner's shared work (01_action_sensing.md): crossings, strikes and classes, marks, the settle timer, and the parts of a scan. -/

namespace Sys2Proof.Machine

/-! ### Gates -/

/-- The filter of one of a key's gates. -/
def KeyRecord.gate (g : Gate) (k : KeyRecord) : GateFilter :=
  match g with
  | .g1 => k.g1
  | .g2 => k.g2

/-- The hammer zone of two filtered levels (R6). -/
def zoneOfLevels (g1 g2 : Bool) : Zone := if g1 then .high else if g2 then .mid else .low

/-- One sample at a gate (R4): opposite to the filtered level it advances the count, and agreeing it restarts it. -/
def GateFilter.sample (above : Bool) (f : GateFilter) : GateFilter :=
  { f with count := if above = f.above then 0 else min Config.agreeing (f.count + 1) }

/-- The third agreeing sample has been taken (R4). -/
def GateFilter.due (f : GateFilter) : Bool := f.count = Config.agreeing

/-- The crossing of a gate is due, and goes first when both gates of the key are due (R5): of two, G1's goes first
exactly when it is downward. -/
def KeyRecord.crossingDue (g : Gate) (k : KeyRecord) : Bool :=
  match g with
  | .g1 => k.g1.due && (!k.g2.due || k.g1.above)
  | .g2 => k.g2.due && (!k.g1.due || !k.g1.above)

/-! ### Strikes and classes -/

/-- What a confirmed G1 upward crossing is (R10, R11): a strike with its gate interval, or a class. -/
inductive CrossingClass where
  | strike (interval : Nat)
  | orphan
  | gateFault
  | missed
  | rebound
  deriving DecidableEq, Repr

/-- The rebound guard's length by the rail state (R12, R81). -/
def guardLength (rail : RailState) : Nat := if rail = .closed then Config.guardClosed else Config.guardOther

/-- A crossing with this capture stamp passes the rebound guard (R10, R12). -/
def guardPassed (length : Nat) (stamp : Stamp) (last : Option StrikeStamp) : Bool :=
  match last with
  | none => true
  | some st => st.guardMark || length ≤ ageOf stamp st.stamp

/-- The phases that can strike (R10). -/
def Phase.canStrike (p : Phase) : Bool := p = .travel || p = .rearmed

/-- The class of a G1 upward crossing (R10, R11). -/
def classify (guard : Nat) (stamp : Stamp) (k : KeyRecord) : CrossingClass :=
  if !k.phase.canStrike then .orphan
  else match k.g2Stamp with
    | none => .gateFault
    | some g =>
      if g.stale || Config.maxInterval < ageOf stamp g.stamp then .missed
      else if guardPassed guard stamp k.strikeStamp then .strike (ageOf stamp g.stamp)
      else .rebound

/-- The record after an accepted strike with a touch level (R10). -/
def KeyRecord.strike (stamp : Stamp) (level : Nat) (k : KeyRecord) : KeyRecord :=
  { k with
    prevStrikeStamp := k.strikeStamp.map (·.stamp)
    strikeStamp := some ⟨stamp, false⟩
    lastLevel := level
    strikes := bump k.strikes
    phase := .struck }

/-- The record and the live events of a G1 upward crossing of an active key (R10, R11, R14). -/
def KeyRecord.riseG1 (key : Key) (guard : Nat) (stamp : Stamp) (level : Nat → Nat) (k : KeyRecord) :
    KeyRecord × List NoteRequest :=
  match classify guard stamp k with
  | .strike interval =>
    let l := level interval
    let repetition := if k.phase = .rearmed then [NoteRequest.release key (BitVec.ofNat 8 k.lastRelease)] else []
    (k.strike stamp l, repetition ++ [.strike key (BitVec.ofNat 8 l)])
  | .orphan => ({ k with orphan := bump k.orphan }, [])
  | .gateFault => ({ k with gateFault := bump k.gateFault }, [])
  | .missed => ({ k with missed := bump k.missed }, [])
  | .rebound => ({ k with rebound := bump k.rebound }, [])

/-- The reached-high mark is set (R7). -/
def KeyRecord.markHigh (k : KeyRecord) : KeyRecord := { k with g2Stamp := k.g2Stamp.map fun g => { g with reachedHigh := true } }

/-- The filtered level of a gate takes its new value and the zone is derived (R4, R6). -/
def KeyRecord.flip (g : Gate) (k : KeyRecord) : KeyRecord :=
  match g with
  | .g1 => { k with g1 := ⟨!k.g1.above, 0⟩, zone := zoneOfLevels (!k.g1.above) k.g2.above }
  | .g2 => { k with g2 := ⟨!k.g2.above, 0⟩, zone := zoneOfLevels k.g1.above (!k.g2.above) }

/-- The crossing just taken by flip gave G1 ABOVE with G2 BELOW (R6): G1 rose or G2 fell into it. -/
def KeyRecord.impossible (k : KeyRecord) : Bool := k.g1.above && !k.g2.above

/-- The excursion ended without reaching G1 (R13), judged before the landing makes the g2_stamp absent. -/
def KeyRecord.missedExcursion (k : KeyRecord) : Bool :=
  k.phase.canStrike && (match k.g2Stamp with
    | some g => !g.reachedHigh
    | none => false)

/-- One crossing's work on its key record, with the live events it emits. A key is active when it is enabled and the
scanner is READY. In order: level and zone (R4, R6), the gate-fault count of the impossible combination (R6), the
g2_stamp and its mark (R7), a G1 rise (R10, R11) counting one gate fault at most (R6), and a landing (R7, R13). -/
def KeyRecord.cross (key : Key) (g : Gate) (active : Bool) (guard : Nat) (stamp : Stamp) (level : Nat → Nat) (k : KeyRecord) :
    KeyRecord × List NoteRequest :=
  let up := !(k.gate g).above
  let k' := k.flip g
  let k' := if g = .g2 && up then { k' with g2Stamp := some ⟨stamp, false, false⟩ } else k'
  let (k', events) := if g = .g1 && up && active then k'.riseG1 key guard stamp level else (k', [])
  let k' := if g = .g1 && up then k'.markHigh else k'
  let k' := if k'.impossible && active then { k' with gateFault := bump k.gateFault } else k'
  let k' := if k'.zone = .low then
      { k' with g2Stamp := none, missed := if active && k'.missedExcursion && k.zone != .low then bump k'.missed else k'.missed }
    else k'
  (k', events)

/-- A live event is handed to the Voice Engine, the Performance Recorder and the Practice Player (R16). -/
def State.emitLive (n : NoteRequest) (s : State) : State :=
  let s := s.onVoice fun v => { v with liveRequests := v.liveRequests ++ [n] }
  match n with
  | .strike k l => (s.offer .live (.strike k l)).matchStrike k
  | .release k l => s.offer .live (.release k l)

/-- The flight count, the quiet indicator, the last-landing stamp and the settle timer after a change of zone (R17, R18). -/
def Scanner.zoneChanged (old new : Zone) (stamp : Stamp) (c : Scanner) : Scanner :=
  if old = .low ∧ new ≠ .low then { c with flightCount := c.flightCount + 1, quiet := false }
  else if old ≠ .low ∧ new = .low then
    { c with
      flightCount := c.flightCount - 1, quiet := false
      lastLanding := some stamp, settle := some Config.settleTime }
  else c

/-- The touch level of a gate interval on a key, with the entry in effect and the curve (R30). -/
def State.touchLevelOf (s : State) (key : Key) (interval : Nat) : Nat :=
  touchLevel s.touch.inEffect[key] s.touch.curve interval

/-- A key's work counts and emits: the key is enabled in effect and the scanner READY (R20, R23). -/
def State.keyActive (s : State) (key : Key) : Bool := s.scanner.ready && s.touch.inEffect[key].enabled

/-- A confirmed crossing is taken (R4 to R7, R10 to R14, R17 to R19); its capture stamp is the confirmation tick minus 2. -/
def State.crossing (key : Key) (g : Gate) (s : State) : State :=
  let old := s.scanner.keys[key]
  let stamp := s.actionClock - 2
  let (new, events) := old.cross key g (s.keyActive key) (guardLength s.rail.state) stamp (s.touchLevelOf key)
  let s := s.onScanner fun c => { c with keys := c.keys.set key new }.zoneChanged old.zone new.zone stamp
  let s := events.foldl (fun s n => s.emitLive n) s
  if g = .g2 && !old.g2.above then s.g2Report else s

/-- The crossing of a gate is taken if it is due. -/
def State.takeCrossing (key : Key) (g : Gate) (s : State) : State :=
  if s.scanner.keys[key].crossingDue g then s.crossing key g else s

/-! ### Marks and the settle timer -/

/-- The stale mark is due (R7). -/
def KeyRecord.staleDue (now : Stamp) (k : KeyRecord) : Bool :=
  match k.g2Stamp with
  | some g => !g.stale && Config.staleAge ≤ ageOf now g.stamp
  | none => false

/-- The guard mark is due (R12). -/
def KeyRecord.guardDue (now : Stamp) (k : KeyRecord) : Bool :=
  match k.strikeStamp with
  | some st => !st.guardMark && Config.guardAge ≤ ageOf now st.stamp
  | none => false

/-- The stale mark is set if it is due (R7). -/
def KeyRecord.takeStale (now : Stamp) (k : KeyRecord) : KeyRecord :=
  if k.staleDue now then { k with g2Stamp := k.g2Stamp.map fun g => { g with stale := true } } else k

/-- The guard mark is set if it is due (R12). -/
def KeyRecord.takeGuard (now : Stamp) (k : KeyRecord) : KeyRecord :=
  if k.guardDue now then { k with strikeStamp := k.strikeStamp.map fun st => { st with guardMark := true } } else k

/-- The stale mark of a key is set if it is due. -/
def State.takeStale (key : Key) (s : State) : State :=
  s.onScanner fun c => { c with keys := updateAt key (KeyRecord.takeStale s.actionClock) c.keys }

/-- The guard mark of a key is set if it is due. -/
def State.takeGuard (key : Key) (s : State) : State :=
  s.onScanner fun c => { c with keys := updateAt key (KeyRecord.takeGuard s.actionClock) c.keys }

/-- The settle timer's expiry (R18): quiet becomes true if the flight count is 0, and a waiting rail gets its grant (R63). -/
def State.settleExpires (s : State) : State :=
  let s := s.onScanner fun c => { c with settle := none }
  if s.scanner.flightCount = 0 then (s.onScanner fun c => { c with quiet := true }).quietGrant else s

/-- The settle timer's expiry is taken if it is due. -/
def State.takeSettle (s : State) : State := if s.scanner.settle = some 0 then s.settleExpires else s

/-! ### The parts of a scan -/

/-- The release level of a fall in travel over four scans (R15). -/
def releaseLevel (before now : Nat) : Nat := min 127 ((before - now) / 4)

/-- The release level at the present scan (R15). -/
def KeyRecord.releaseNow (k : KeyRecord) : Nat := releaseLevel k.history[0] k.history[4]

/-- The phase check of one scan (R8, R9), with the level of the RELEASE it emits. -/
def KeyRecord.phaseCheck (e : RegEntry) (k : KeyRecord) : KeyRecord × Option Nat :=
  match k.phase with
  | .idle => if e.touchPoint ≤ k.travel then ({ k with phase := .travel }, none) else (k, none)
  | .travel => if k.travel < e.releasePoint then ({ k with phase := .idle }, none) else (k, none)
  | .struck =>
    if k.travel < e.releasePoint then ({ k with phase := .idle, lastRelease := k.releaseNow }, some k.releaseNow)
    else if k.travel < e.rearmPoint then ({ k with phase := .rearmed, lastRelease := k.releaseNow }, none)
    else (k, none)
  | .rearmed =>
    if k.travel < e.releasePoint then ({ k with phase := .idle, lastRelease := k.releaseNow }, some k.releaseNow)
    else (k, none)

/-- A key whose entry taken into effect is disabled goes to IDLE (R23): a struck key with a RELEASE of level 0. -/
def KeyRecord.disable (k : KeyRecord) : KeyRecord × Option Nat :=
  match k.phase with
  | .struck => ({ k with phase := .idle, lastRelease := 0 }, some 0)
  | .rearmed => ({ k with phase := .idle, lastRelease := 0 }, some 0)
  | .travel => ({ k with phase := .idle }, none)
  | .idle => (k, none)

/-- The travel of this scan stored and appended to the history (R2). -/
def KeyRecord.scanTravel (travel : Nat) (k : KeyRecord) : KeyRecord :=
  { k with travel := travel, history := #v[k.history[1], k.history[2], k.history[3], k.history[4], travel] }

/-- One key's work at a scan, by the entry taken into effect (R2, R3, R8, R9, R20, R23). -/
def KeyRecord.scan (ready : Bool) (e : RegEntry) (raw : Nat) (k : KeyRecord) : KeyRecord × Option Nat :=
  let k := k.scanTravel (travelOf raw e.rest)
  if !ready then (k, none) else if e.enabled then k.phaseCheck e else k.disable

/-- The keys' part of a scan: every entry is taken into effect (R3, R28), every key record is worked (R2), and the
RELEASEs are emitted (R9). That those of different keys go out in ascending key order is the model's choice
(notes/assumptions/29.md). -/
def State.scanKeys (samples : ScanSamples) (s : State) : State :=
  let results := mapTableIx (fun i k => KeyRecord.scan s.scanner.ready s.touch.table[i] samples.keys[i].toNat k) s.scanner.keys
  let s := s.onTouch fun t => { t with inEffect := t.table }
  let s := s.onScanner fun c => { c with keys := mapTable Prod.fst results }
  allKeys.foldl (fun s k =>
    match results[k].2 with
    | some level => s.emitLive (.release k (BitVec.ofNat 8 level))
    | none => s) s

/-- What a scan measures of the pedals (R43): the map and rests taken into effect, the travels, and the sostenuto
filter's step. -/
def PedalUnit.measure (samples : ScanSamples) (p : PedalUnit) : PedalUnit :=
  { p with
    damperRestInEffect := p.damperRest
    unaCordaRestInEffect := p.unaCordaRest
    mapInEffect := p.map
    damperTravel := travelOf samples.damper.toNat p.damperRest
    unaCordaTravel := travelOf samples.unaCorda.toNat p.unaCordaRest
    sostenutoRaw := samples.sostenuto.toNat
    filter := p.filter.step (sostenutoMeets p.filter.on samples.sostenuto.toNat) }

/-- The live values of the travels and the filter's state (R43, R44, R46, R47). While this scan's confirmation is due the
filtered state is not settled, and the live sostenuto stays as it is until the confirmation. -/
def PedalUnit.liveValues (p : PedalUnit) : PedalValues where
  lift := liftOf p.mapInEffect p.damperTravel
  sostenuto := if p.filter.due then p.live.sostenuto else p.filter.on
  unaCorda := liveUnaCorda p.unaCordaTravel
  u := liveDepth p.unaCordaTravel

/-- The pedals' part of a scan (R43, R49, R52); from the first one while READY on, the live values follow the sensors
(R43). When the sostenuto's confirmation is due, the offer of the una corda is left to follow it, so that a scan's records
keep their order (R52; notes/assumptions/9.md). -/
def State.scanPedals (samples : ScanSamples) (s : State) : State :=
  let s := s.onPedals (PedalUnit.measure samples)
  if s.scanner.ready then
    let s := (s.onPedals fun p => { p with live := p.liveValues, following := true }).mergePedals
    let s := s.offerDamper.offerSostenuto
    if s.pedals.filter.due then s else s.offerUnaCorda
  else s

/-- The end switches' part of a scan (R57). -/
def State.scanSwitches (samples : ScanSamples) (s : State) : State :=
  s.onRail fun r => { r with
    switchOpen := r.switchOpen.step (samples.endOpen != r.switchOpen.on)
    switchClosed := r.switchClosed.step (samples.endClosed != r.switchClosed.on) }

/-- One raw sample of a sensor in rest learning (R21). -/
def SensorStats.add (raw : Nat) (st : SensorStats) : SensorStats := ⟨st.sum + raw, min st.least raw, max st.greatest raw⟩

/-- The raw sample of a sensor of rest learning: 0 to 87 by key, 88 damper, 89 una corda (R21). -/
def ScanSamples.sensor (i : Fin 90) (samples : ScanSamples) : Sample :=
  if h : i.val < 88 then samples.keys[i.val] else if i.val = 88 then samples.damper else samples.unaCorda

/-- One scan collected (R21). -/
def RestLearning.collect (samples : ScanSamples) (l : RestLearning) : RestLearning :=
  ⟨l.scans + 1, mapTableIx (fun i st => st.add (ScanSamples.sensor i samples).toNat) l.sensors⟩

/-- The collection's part of a scan (R21). -/
def State.scanLearning (samples : ScanSamples) (s : State) : State :=
  s.onScanner fun c => { c with learning := c.learning.map (RestLearning.collect samples) }

/-- A sensor is settled (R21). -/
def SensorStats.settled (st : SensorStats) : Bool := st.greatest - st.least ≤ Config.settledSpread

/-- The learned rest of a settled sensor, or the rest it holds (R21). -/
def SensorStats.restOr (held : Nat) (st : SensorStats) : Nat := if st.settled then st.sum / Config.learnScans else held

/-- The unsettled sensors of a collection (R21, R197). -/
def RestLearning.details (l : RestLearning) : RestDetails :=
  let unsettled := ((List.finRange 90).filter fun i : Fin 90 => !l.sensors[i].settled).map Fin.val
  ⟨unsettled.length, unsettled.take 8⟩

/-- Rest learning completes (R21, R20, R188): the settled rests are written, the Scanner is READY, and the operation ends. -/
def State.completeLearning (l : RestLearning) (s : State) : State :=
  let d := l.details
  let s := s.onTouch fun t => { t with
    table := mapTableIx (fun i e => { e with rest := l.sensors[i.val].restOr e.rest }) t.table }
  let s := s.onPedals fun p => { p with
    damperRest := l.sensors[88].restOr p.damperRest, unaCordaRest := l.sensors[89].restOr p.unaCordaRest }
  let s := s.onScanner fun c => { c with ready := true, learning := none }
  match s.link.slot with
  | .running .startup => s.endOperation .complete (.startup s.wave.summary d)
  | _ => s.endOperation .complete (.rest d)

/-- The completion of rest learning is taken if it is due: 256 scans are collected (R21). -/
def State.takeLearning (s : State) : State :=
  match s.scanner.learning with
  | some l => if l.scans = Config.learnScans then s.completeLearning l else s
  | none => s

/-- The live sostenuto follows the filter (R43, R46): the Scanner is READY and has scanned since it became so. -/
def State.liveFollows (s : State) : Bool := s.scanner.ready && s.pedals.following

/-- The sostenuto's confirmation (R46): from the first READY scan on the live sostenuto follows the filter, and the merge
follows it (R49, R50); before that scan the filter alone turns. -/
def State.sostenutoTurns (s : State) : State :=
  let s := s.onPedals fun p => { p with filter := p.filter.confirm }
  if s.liveFollows then
    (s.onPedals fun p => { p with live := { p.live with sostenuto := p.filter.on } }).mergePedals
  else s

/-- The sostenuto's confirmation after the scan of its third agreeing sample, if it is due, with the offers that scan left
to it (R46, R52). -/
def State.takeSostenuto (s : State) : State :=
  if s.pedals.filter.due then
    let s := s.sostenutoTurns
    if s.liveFollows then s.offerSostenuto.offerUnaCorda else s
  else s

/-- What the last scan made due and nobody has taken (notes/assumptions/5.md). That END_OPEN's change goes before
END_CLOSED's when both are due is the model's choice (notes/assumptions/30.md). -/
def State.takeScanLeftovers (s : State) : State :=
  (((s.takeSostenuto).takeSwitch .opened).takeSwitch .closed).takeLearning

/-- A playback tick (R158, R159): the counter reloads, the countdown decreases, and a firing run is made. -/
def State.playbackTick (s : State) : State :=
  (s.reloadTempo.onPlayer fun p => { p with countdown := p.countdown - 1 }).firingRun runFuel false

/-- The tempo counter's expiry is taken if it is due. -/
def State.takePlaybackTick (s : State) : State := if s.player.tempo = some 0 then s.playbackTick else s

/-- A framing error (R177): the partial frame is discarded, counted, and LINK_ERROR is raised. -/
def State.framingError (s : State) : State :=
  (s.onLink fun l => { l with receiver := .hunt, interByte := none, framing := bump l.framing }).raise .linkError

/-- The inter-byte timer's expiry is taken if it is due (R177). -/
def State.takeInterByte (s : State) : State := if s.link.interByte = some 0 then s.framingError else s

/-- A key's crossings and marks that are due, in the order of R5. -/
def State.takeKeyLeftovers (s : State) (key : Key) : State :=
  let s := ((s.takeCrossing key .g2).takeCrossing key .g1).takeCrossing key .g2
  (s.takeStale key).takeGuard key

/-- What the last tick of the action clock made due and nobody has taken, in an order that is the model's choice
(notes/assumptions/5.md). -/
def State.takeTickLeftovers (s : State) : State :=
  (((allKeys.foldl State.takeKeyLeftovers s).takeSettle).takePlaybackTick).takeInterByte

/-- One tick of the action clock (R4): every gate is sampled and the timers of this clock run down. -/
def State.tick (g1 g2 : BitVec 88) (s : State) : State :=
  let s := { s with actionClock := s.actionClock + 1 }
  let s := s.onScanner fun c => { c with
    keys := mapTableIx (fun i k => { k with
      g1 := k.g1.sample (g1.getLsbD i.val), g2 := k.g2.sample (g2.getLsbD i.val) }) c.keys
    settle := runDown c.settle }
  let s := s.onPlayer fun p => { p with tempo := runDown p.tempo }
  s.onLink fun l => { l with interByte := runDown l.interByte }

end Sys2Proof.Machine
end

