-- ==== Sys2Proof/Machine/LinkRequests.lean ====
section
/-! DEFINITION. The requests of the Control Link (10_the_control_link.md): identity, status, notices and the operation slot. -/

namespace Sys2Proof.Machine

/-- GET IDENTITY (R191). -/
def serveGetIdentity (s : State) : Served := .give identityBytes s

/-- GET STATUS (R192). -/
def serveGetStatus (s : State) : Served := .give s.statusBytes s

/-- RESET PART is answered OK; the reset follows its reply (R193). -/
def serveResetPart (s : State) : Served := .ok s

/-- READ NOTICES: the pending and the masked notices (R184). -/
def serveReadNotices (s : State) : Served := .give (noticeBytes s.pendingNotices ++ noticeBytes s.link.maskSet) s

/-- CLEAR NOTICES: the named event notices stop being pending; RECORD_READY is not affected (R184, R148). -/
def serveClearNotices (notices : Half) (s : State) : Served :=
  match noticesOf notices with
  | none => .refuse .badValue s
  | some set => .ok (s.onLink fun l => { l with pendingSet := l.pendingSet &&& ~~~set })

/-- SET NOTICE MASK: the notices named are masked, the others unmasked (R184). -/
def serveSetNoticeMask (notices : Half) (s : State) : Served :=
  match noticesOf notices with
  | none => .refuse .badValue s
  | some set => .ok (s.onLink fun l => { l with maskSet := set })

/-! ### The operation slot -/

/-- The slot is RUNNING with an operation; any result it held is discarded (R186). -/
def State.beginOperation (op : Operation) (s : State) : State := s.onLink fun l => { l with slot := .running op }

/-- A calibration begins (R73): WAIT_CLOSE, with the move duty, origin, target and attempts set, and the grant taken at
once when the action is quiet (R63, R74). -/
def State.beginCalibration (s : State) : State :=
  (s.onRail fun r => { r.rest (.calibrating .waitClose) with
    moveDuty := r.travelDuty, attempts := 0, origin := some .opened, target := .closed }).quietGrant

/-- An accepted operation begins in its owning block (R186). -/
def State.startOperation (op : Operation) (s : State) : State :=
  match op with
  | .startup => (s.beginOperation op).beginLoad
  | .loadZones => (s.beginOperation op).beginLoad
  | .learnRest => (s.beginOperation op).beginLearning
  | .railCalibrate => (s.beginOperation op).beginCalibration

/-- The Rail Controller's own check of RAIL CALIBRATE: its refusal, if it has one (R73). -/
def RailState.refusesCalibrate : RailState → Option Status
  | .opened => none
  | .closed => some .wrongState
  | .fault _ => some .wrongState
  | .waitQuiet => some .busy
  | .moving => some .busy
  | .returning _ => some .busy
  | .homing _ => some .busy
  | .calibrating _ => some .busy

/-- START OPERATION (R186). -/
def serveStartOperation (code : Byte) (s : State) : Served :=
  match operationOf code with
  | none => .refuse .badValue s
  | some op =>
    match s.link.slot with
    | .running _ => .refuse .busy s
    | _ =>
      match op, s.rail.state.refusesCalibrate with
      | .railCalibrate, some status => .refuse status s
      | _, _ => .ok (s.startOperation op)

/-- An aborted calibration brings the rail back to OPEN by its phase (R78). -/
def State.abortCalibration (s : State) : State :=
  match s.rail.state with
  | .calibrating .waitClose => s.onRail (Rail.rest .opened)
  | .calibrating .closing =>
    s.onRail fun r => r.driving (.returning .calibration) .opened r.moveDuty r.travelLimit
  | .calibrating .waitOpen =>
    (s.onRail fun r => { r.rest .waitQuiet with target := .opened, origin := some .closed, attempts := 0 }).quietGrant
  | .calibrating .opening => s.onRail fun r => { r with state := .returning .calibration }
  | _ => s

/-- An aborted rest learning: no rest value changes and the readiness stays (R22). -/
def State.abortLearning (s : State) : State := s.onScanner fun c => { c with learning := none }

/-- The running operation is aborted, with the effects its owning block states (R189). -/
def State.abortOperation (op : Operation) (s : State) : State :=
  match op with
  | .loadZones => let s := s.abortLoad; s.endOperation .aborted (.load s.wave.summary)
  | .learnRest => s.abortLearning.endOperation .aborted .nothing
  | .railCalibrate => s.abortCalibration.endOperation .aborted .nothing
  | .startup =>
    let s := if s.loading then s.abortLoad else s.abortLearning
    s.endOperation .aborted (.load s.wave.summary)

/-- ABORT OPERATION (R189). -/
def serveAbortOperation (s : State) : Served :=
  match s.link.slot with
  | .running op => .ok (s.abortOperation op)
  | _ => .ok s

/-- GET OPERATION RESULT (R190): the result is delivered once. -/
def serveGetOperationResult (s : State) : Served :=
  match s.link.slot with
  | .running _ => .refuse .busy s
  | .empty => .refuse .notReady s
  | .finished op outcome details =>
    .give (resultBytes op outcome details) (s.onLink fun l => { l with slot := .empty })

end Sys2Proof.Machine
end

