-- ==== Sys2Proof/Machine/PlayerRequests.lean ====
section
/-! DEFINITION. The requests of the Practice Player (09_practice_player.md). -/

namespace Sys2Proof.Machine

/-- The player is RUNNING or WAITING (R152). -/
def PlayerState.isPlaying : PlayerState → Bool
  | .running => true
  | .waiting => true
  | _ => false

/-- WRITE PASSAGE (R152). -/
def serveWritePassage (start : Half) (count : Byte) (records : List Record) (s : State) : Served :=
  if runOk 1 60 Config.passageSlots start.toNat count.toNat then
    if s.player.state.isPlaying then .refuse .wrongState s
    else .ok (s.onPlayer fun p => { p with passage := passageWriteRun start.toNat records p.passage })
  else .refuse .badValue s

/-- READ PASSAGE (R153): start slot, count and records (11.5). -/
def serveReadPassage (start : Half) (count : Byte) (s : State) : Served :=
  if runOk 1 60 Config.passageSlots start.toNat count.toNat then
    .give (halfBytes start ++ [count]
      ++ (passageRun s.player.passage start.toNat count.toNat).flatMap Record.bytes) s
  else .refuse .badValue s

/-- A segment number, 0 to 31. -/
def segmentNumberOf (number : Byte) : Option (Fin 32) := if h : number.toNat < 32 then some ⟨number.toNat, h⟩ else none

/-- WRITE SEGMENT (R154). -/
def serveWriteSegment (number : Byte) (entry : SegFields) (s : State) : Served :=
  match segmentNumberOf number, segmentOf entry with
  | some n, some seg => .ok (s.onPlayer fun p => { p with segments := p.segments.set n seg })
  | _, _ => .refuse .badValue s

/-- READ SEGMENT (R155). -/
def serveReadSegment (number : Byte) (s : State) : Served :=
  match segmentNumberOf number with
  | some n => .give s.player.segments[n].fields.bytes s
  | none => .refuse .badValue s

/-- SET SPLIT (R156). -/
def serveSetSplit (key : Byte) (s : State) : Served :=
  match keyOf key with
  | none => .refuse .badValue s
  | some k => if s.player.state = .idle then .ok (s.onPlayer fun p => { p with split := k }) else .refuse .wrongState s

/-- SET MASTER TEMPO (R157). -/
def serveSetMasterTempo (tempo : Byte) (s : State) : Served :=
  if 50 ≤ tempo.toNat ∧ tempo.toNat ≤ 150 then .ok (s.onPlayer fun p => { p with masterTempo := tempo.toNat })
  else .refuse .badValue s

/-- Play starts at a segment (R160): counts and gap at 0, RUNNING with the tempo counter started, the first load, and a
firing run if the player still runs. -/
def State.startPlay (first : Fin 32) (s : State) : State :=
  let s := s.onPlayer fun p => { p with wrong := 0, skips := 0, gap := 0, expected := [], state := .running }
  let s := s.reloadTempo.onPlayer fun p => { p with next := some first }
  let (s, zeroBegun) := s.loadSegment false loadFuel
  s.firingRun runFuel zeroBegun

/-- PLAY START (R160). -/
def servePlayStart (segment : Byte) (s : State) : Served :=
  match segmentNumberOf segment with
  | none => .refuse .badValue s
  | some n => if s.player.state = .idle then .ok (s.startPlay n) else .refuse .wrongState s

/-- PLAY PAUSE (R169). -/
def servePlayPause (s : State) : Served :=
  match s.player.state with
  | .running => .ok (s.onPlayer fun p => { p with state := .pausedRunning, tempo := none })
  | .waiting => .ok (s.onPlayer fun p => { p with state := .pausedWaiting, tempo := none })
  | _ => .refuse .wrongState s

/-- PLAY RESUME (R170). -/
def servePlayResume (s : State) : Served :=
  match s.player.state with
  | .pausedRunning => .ok (s.onPlayer fun p => { p with state := .running }).reloadTempo
  | .pausedWaiting => .ok (s.onPlayer fun p => { p with state := .waiting })
  | _ => .refuse .wrongState s

/-- PLAY STOP (R171). -/
def servePlayStop (s : State) : Served :=
  match s.player.state with
  | .running => .ok (s.playbackClearing.onPlayer fun p => { p with state := .idle })
  | .waiting => .ok (s.playbackClearing.onPlayer fun p => { p with state := .idle })
  | .pausedRunning => .ok (s.playbackClearing.onPlayer fun p => { p with state := .idle })
  | .pausedWaiting => .ok (s.playbackClearing.onPlayer fun p => { p with state := .idle })
  | _ => .ok s

/-- PLAY RESET (R173). -/
def servePlayReset (s : State) : Served :=
  match s.player.state with
  | .haltedBadEvent => .ok (s.onPlayer fun p => { p with state := .idle })
  | .haltedChainEmpty => .ok (s.onPlayer fun p => { p with state := .idle })
  | .idle => .ok s
  | _ => .refuse .wrongState s

/-- GET PLAY STATUS (R174). -/
def serveGetPlayStatus (s : State) : Served := .give s.player.statusBytes s

end Sys2Proof.Machine
end

