-- ==== Sys2Proof/Machine/RecorderRequests.lean ====
section
/-! DEFINITION. The requests of the Performance Recorder (08_performance_recorder.md). -/

namespace Sys2Proof.Machine

/-- The recorder after an accepted RECORD START (R144). -/
def Recorder.start (mask : SourceMask) (now : Time) (r : Recorder) : Recorder :=
  { r with
    recording := true, mask := mask, blockA := ⟨.active, []⟩, blockB := ⟨.empty, []⟩, readyFirst := none
    lastWritten := now, lostCount := 0, firstLost := none, recoveryPending := false }

/-- RECORD START (R144), with the three opening PEDAL records (R53). -/
def serveRecordStart (mask : Byte) (s : State) : Served :=
  match maskOf mask with
  | none => .refuse .badValue s
  | some m =>
    if s.recorder.recording || s.recorder.anyReady then .refuse .wrongState s
    else .ok (s.onRecorder (Recorder.start m s.perfClock)).offerOpening

/-- The recorder after RECORD STOP in RECORDING (R146). -/
def Recorder.stop (r : Recorder) : Recorder :=
  let r := match r.activeBlock with
    | none => r
    | some n => if (r.block n).records.isEmpty then r.withBlock n ⟨.empty, []⟩ else r.becomeReady n
  { r with recording := false }

/-- RECORD STOP (R146). -/
def serveRecordStop (s : State) : Served :=
  if s.recorder.recording then .ok (s.onRecorder Recorder.stop) else .ok s

/-- The recorder after RECORD FLUSH in RECORDING (R145). -/
def Recorder.flush (r : Recorder) : Recorder :=
  match r.activeBlock with
  | none => r
  | some n => if (r.block n).records.isEmpty then r else r.handOver n

/-- RECORD FLUSH (R145). -/
def serveRecordFlush (s : State) : Served :=
  if s.recorder.recording then .ok (s.onRecorder Recorder.flush) else .refuse .wrongState s

/-- The oldest READY block with its sequence number (R147): the only one, or the first in the ready order. -/
def Recorder.oldestReady (r : Recorder) : Option (BlockName × Byte) :=
  match r.blockA.state, r.blockB.state with
  | .ready qa, .ready qb => if r.readyFirst = some .b then some (.b, qb) else some (.a, qa)
  | .ready qa, _ => some (.a, qa)
  | _, .ready qb => some (.b, qb)
  | _, _ => none

/-- A read block is freed (R147): it becomes ACTIVE when recording with no block ACTIVE, with recovery first when events
were lost (R143), and EMPTY otherwise. -/
def Recorder.free (n : BlockName) (r : Recorder) : Recorder :=
  let r := { r with readyFirst := none }
  if r.recording && r.activeBlock.isNone then
    let r := r.withBlock n ⟨.active, []⟩
    if 0 < r.lostCount then r.recover else r
  else r.withBlock n ⟨.empty, []⟩

/-- READ RECORD BLOCK (R147). -/
def serveReadRecordBlock (s : State) : Served :=
  match s.recorder.oldestReady with
  | none => .refuse .notReady s
  | some (n, sequence) => .give ((s.recorder.block n).bytes n sequence) (s.onRecorder (Recorder.free n))

end Sys2Proof.Machine
end

