-- ==== Sys2Proof/Machine/SoundRequests.lean ====
section
/-! DEFINITION. The requests of the Voice Engine, the Wave Fetch Unit and the Audio Port (chapters 5 to 7). -/

namespace Sys2Proof.Machine

/-- SET SOUND OPTIONS (R85). -/
def serveSetSoundOptions (option : Byte) (s : State) : Served :=
  match onOffOf option with
  | some on => .ok (s.onVoice fun v => { v with acousticLayer := on })
  | none => .refuse .badValue s

/-- GET VOICE STATE (R106). -/
def serveGetVoiceState (first count : Byte) (s : State) : Served :=
  if runOk 0 8 96 first.toNat count.toNat then .give (s.voiceBytes first.toNat count.toNat) s
  else .refuse .badValue s

/-- READ WAVE STORE: an accepted request becomes a diagnostic read waiting at the arbiter (R122). -/
def serveReadWaveStore (address : Long) (count : Byte) (s : State) : Served :=
  if 1 ≤ count.toNat ∧ count.toNat ≤ 128 ∧ address.toNat + count.toNat ≤ Config.storeBytes then
    .waiting (s.onWave fun w => { w with diagnostics := w.diagnostics ++ [⟨address.toNat, count.toNat⟩] }).arbitrate
  else .refuse .badValue s

/-- GET ZONE (R123). -/
def serveGetZone (first : Half) (count : Byte) (s : State) : Served :=
  if s.loading then .refuse .busy s
  else if count.toNat ≤ 8 ∧ first.toNat + count.toNat ≤ s.wave.zones.length then
    .give (s.wave.zoneBytes first.toNat count.toNat) s
  else .refuse .badValue s

/-- SET OUTPUT GAIN (R131). -/
def serveSetOutputGain (channel live playback : Byte) (s : State) : Served :=
  match channelOf channel with
  | some c =>
    .ok (s.onAudio (AudioPort.onGains c fun g =>
      ⟨{ g.live with target := live.toNat }, { g.playback with target := playback.toNat }⟩))
  | none => .refuse .badValue s

/-- SET ROUTE (R133, R195). -/
def serveSetRoute (slot channel side : Byte) (s : State) : Served :=
  if h : slot.toNat < 8 then
    match routeOf channel side with
    | some r => .ok (s.onAudio fun a => { a with routes := a.routes.set slot.toNat r h })
    | none => .refuse .badValue s
  else .refuse .badValue s

/-- GET OUTPUT (R134). -/
def serveGetOutput (s : State) : Served := .give s.audio.statusBytes s

end Sys2Proof.Machine
end

