-- ==== Sys2Proof/Machine/Dispatcher.lean ====
section
/-! DEFINITION. The dispatcher and the receive queue (R178 to R181), the frame receiver (R177), and the part reset (R193). -/

namespace Sys2Proof.Machine

/-- A request is handed to its owning block (R180). -/
def serveRequest (r : Request) (s : State) : Served :=
  match r with
  | .getIdentity => serveGetIdentity s
  | .getStatus => serveGetStatus s
  | .resetPart => serveResetPart s
  | .readNotices => serveReadNotices s
  | .clearNotices notices => serveClearNotices notices s
  | .setNoticeMask notices => serveSetNoticeMask notices s
  | .startOperation code => serveStartOperation code s
  | .abortOperation => serveAbortOperation s
  | .getOperationResult => serveGetOperationResult s
  | .getKeyState first count => serveGetKeyState first count s
  | .getKeyCounters first count => serveGetKeyCounters first count s
  | .setRegulation first count entries => serveSetRegulation first count entries s
  | .getRegulation first count => serveGetRegulation first count s
  | .setTouchCurve points => serveSetTouchCurve points s
  | .getTouchCurve => serveGetTouchCurve s
  | .getPedalState => serveGetPedalState s
  | .setPedalMap contact full => serveSetPedalMap contact full s
  | .setRailMode code => serveSetRailMode code s
  | .clearRailFault => serveClearRailFault s
  | .setRailDrive duty => serveSetRailDrive duty s
  | .getRailState => serveGetRailState s
  | .setSoundOptions option => serveSetSoundOptions option s
  | .getVoiceState first count => serveGetVoiceState first count s
  | .readWaveStore address count => serveReadWaveStore address count s
  | .getZone first count => serveGetZone first count s
  | .setOutputGain channel live playback => serveSetOutputGain channel live playback s
  | .setRoute slot channel side => serveSetRoute slot channel side s
  | .getOutput => serveGetOutput s
  | .recordStart mask => serveRecordStart mask s
  | .recordStop => serveRecordStop s
  | .recordFlush => serveRecordFlush s
  | .readRecordBlock => serveReadRecordBlock s
  | .writePassage start count records => serveWritePassage start count records s
  | .readPassage start count => serveReadPassage start count s
  | .writeSegment number entry => serveWriteSegment number entry s
  | .readSegment number => serveReadSegment number s
  | .setSplit key => serveSetSplit key s
  | .setMasterTempo tempo => serveSetMasterTempo tempo s
  | .playStart segment => servePlayStart segment s
  | .playPause => servePlayPause s
  | .playResume => servePlayResume s
  | .playStop => servePlayStop s
  | .playReset => servePlayReset s
  | .getPlayStatus => serveGetPlayStatus s

/-- The reply to this request is followed by a part reset (R193). -/
def endsInReset (r : Request) : Bool := r.kind = 0x03#8

/-- The dispatcher takes a request of a known kind: its length is examined, then its owning block serves it (R180, R181). -/
def State.takeRequest (r : Request) (s : State) : State :=
  if r.lengthOk then State.conclude r.kind (endsInReset r) (serveRequest r s) else s.answer ⟨r.kind, .badLength, []⟩ false

/-- The dispatcher takes a checked frame's body (R181). -/
def State.takeBody (body : List Byte) (s : State) : State :=
  match parseBody body with
  | .unknownKind kind => s.answer ⟨kind, .unknownKind, []⟩ false
  | .badLength kind => s.answer ⟨kind, .badLength, []⟩ false
  | .request r => s.takeRequest r

/-- In IDLE, with a frame in the queue, the dispatcher takes the oldest at once (R180). -/
def State.pump (s : State) : State :=
  match s.link.dispatcher, s.link.queue with
  | .idle, body :: rest => (s.onLink fun l => { l with queue := rest }).takeBody body
  | _, _ => s

/-- A checked frame is offered to the receive queue (R179). -/
def State.offerBody (body : List Byte) (s : State) : State :=
  if s.link.queue.length < 4 then (s.onLink fun l => { l with queue := l.queue ++ [body] }).pump
  else (s.onLink fun l => { l with overrun := bump l.overrun }).raise .linkError

/-- A request command: its checked frame arrives. An IDLE dispatcher with nothing queued takes it at once, and otherwise
its body is offered to the queue (R179, R180; notes/assumptions/3.md). -/
def State.arrive (r : Request) (s : State) : State :=
  if s.link.dispatcher = .idle ∧ s.link.queue = [] then s.takeRequest r else s.offerBody r.body

/-- A command with a kind code and a payload that need not spell a request arrives in the same way (R181). -/
def State.arriveBody (kind : Byte) (payload : List Byte) (s : State) : State :=
  if s.link.dispatcher = .idle ∧ s.link.queue = [] then s.takeBody (kind :: payload) else s.offerBody (kind :: payload)

/-! ### The frame receiver (R177, R178) -/

/-- The receiver moves on within a frame, and the inter-byte timer starts afresh (R177; notes/assumptions/13.md). -/
def State.expectByte (r : Receiver) (s : State) : State :=
  s.onLink fun l => { l with receiver := r, interByte := some Config.interByteTime }

/-- The receiver returns to HUNT, and the inter-byte timer stops (R177). -/
def State.hunt (s : State) : State := s.onLink fun l => { l with receiver := .hunt, interByte := none }

/-- A complete frame (R178). -/
def State.frameComplete (len : Nat) (body : List Byte) (chk : Byte) (s : State) : State :=
  let s := s.hunt
  if crc8 (BitVec.ofNat 8 len :: body) = chk then s.offerBody body
  else (s.onLink fun l => { l with badCheck := bump l.badCheck }).raise .linkError

/-- The receiver takes a byte (R177). -/
def State.takeByte (b : Byte) (s : State) : State :=
  match s.link.receiver with
  | .hunt => if b = 0xD5#8 then s.expectByte .length else s
  | .length => if b = 0 then s.framingError else s.expectByte (.body b.toNat [])
  | .body len got =>
    let got := got ++ [b]
    s.expectByte (if got.length < len then .body len got else .check len got)
  | .check len got => s.frameComplete len got b

/-- A broken character: a framing error inside a frame, and passed over outside one (R175). -/
def State.brokenByte (s : State) : State := if s.link.receiver = .hunt then s else s.framingError

/-! ### Part reset (R193) -/

/-- A key record with the levels its gates present when a reset ends (R1, R6). -/
def KeyRecord.resetAt (g1 g2 : Bool) : KeyRecord :=
  { KeyRecord.reset with g1 := ⟨g1, 0⟩, g2 := ⟨g2, 0⟩, zone := zoneOfLevels g1 g2 }

/-- The keys whose hammer zone is not LOW (R17). -/
def inFlight (keys : Vector KeyRecord 88) : Nat := (allKeys.filter fun k => keys[k].zone != .low).length

/-- The Scanner after a part reset with these gate levels (R1, R17). -/
def Scanner.resetAt (pins : Pins) : Scanner :=
  let keys := Vector.ofFn fun k : Key => KeyRecord.resetAt (pins.g1.getLsbD k.val) (pins.g2.getLsbD k.val)
  { Scanner.reset with keys := keys, flightCount := inFlight keys }

/-- The Rail Controller after a part reset with these switch levels and this level of RAIL_GUARD_N, before it enters
HOMING (R55, R57, R58). -/
def Rail.resetAt (pins : Pins) (guardLow : Bool) : Rail :=
  { Rail.reset with switchOpen := ⟨pins.endOpen, 0⟩, switchClosed := ⟨pins.endClosed, 0⟩, guardLow := guardLow }

/-- The end of a part reset (R193): every block at its reset values, with the levels the pins present, and the rail
entering HOMING (R59). The waiting commands and the model's counter of draws are kept. -/
def State.partReset (pins : Pins) (s : State) : State :=
  { State.reset with
    draws := s.draws, pending := s.pending
    scanner := Scanner.resetAt pins, rail := Rail.resetAt pins s.rail.guardLow }.enterHoming

/-- The part held in reset (R193, R125): the blocks hold their reset values and stop their work, the port included
(notes/assumptions/17.md). -/
def State.heldInReset (s : State) : State :=
  { State.reset with
    inReset := true, draws := s.draws, pending := s.pending
    rail := { Rail.reset with guardLow := s.rail.guardLow }
    wave := { WaveUnit.reset with port := none } }

/-- The last byte of a reply has been sent (R180, R193): the part resets after the reply to RESET PART, and otherwise the
dispatcher is IDLE and takes the next frame. -/
def State.replySent (pins : Pins) (s : State) : State :=
  match s.link.dispatcher with
  | .sending _ true => s.partReset pins
  | .sending _ false => (s.onLink fun l => { l with dispatcher := .idle }).pump
  | _ => s

end Sys2Proof.Machine
end

