-- ==== Sys2Proof/Machine/RequestCommands.lean ====
section
/-! DEFINITION. The meanings of the commands that name a request of the control link: the request arrives as a checked frame, and the dispatcher takes it or it waits (R179 to R181; notes/assumptions/3.md). While RESET_N is low RXD is not sampled and nothing arrives (R175, R193). -/

namespace Sys2Proof.Machine

/-- What a command does in a part that is not held in reset; held in reset, it has no effect (R193). -/
def unlessReset (f : State → State) (s : State) : Host.Outcome State Fault Refusal := .next (if s.inReset then s else f s)

/-- UNKNOWN_KIND: a frame whose kind names no request (R181). -/
def execUnknownKind (kind : Byte) (payload : List Byte) (s : State) : Host.Outcome State Fault Refusal :=
  unlessReset (State.arriveBody kind payload) s

/-- LOAD_ZONES: START OPERATION with this operation's code (R186). -/
def execLoadZones (s : State) : Host.Outcome State Fault Refusal := unlessReset (State.arrive (.startOperation 1)) s

/-- LEARN_REST: START OPERATION with this operation's code (R186). -/
def execLearnRest (s : State) : Host.Outcome State Fault Refusal := unlessReset (State.arrive (.startOperation 2)) s

/-- RAIL_CALIBRATE: START OPERATION with this operation's code (R186). -/
def execRailCalibrate (s : State) : Host.Outcome State Fault Refusal := unlessReset (State.arrive (.startOperation 3)) s

/-- STARTUP: START OPERATION with this operation's code (R186). -/
def execStartup (s : State) : Host.Outcome State Fault Refusal := unlessReset (State.arrive (.startOperation 0)) s

/-- GET_IDENTITY (R191). -/
def execGetIdentity (s : State) : Host.Outcome State Fault Refusal :=
  unlessReset (State.arrive .getIdentity) s

/-- GET_STATUS (R192). -/
def execGetStatus (s : State) : Host.Outcome State Fault Refusal :=
  unlessReset (State.arrive .getStatus) s

/-- RESET_PART (R193). -/
def execResetPart (s : State) : Host.Outcome State Fault Refusal :=
  unlessReset (State.arrive .resetPart) s

/-- READ_NOTICES (R184). -/
def execReadNotices (s : State) : Host.Outcome State Fault Refusal :=
  unlessReset (State.arrive .readNotices) s

/-- CLEAR_NOTICES (R184). -/
def execClearNotices (notices : Half) (s : State) : Host.Outcome State Fault Refusal :=
  unlessReset (State.arrive (.clearNotices notices)) s

/-- SET_NOTICE_MASK (R184). -/
def execSetNoticeMask (notices : Half) (s : State) : Host.Outcome State Fault Refusal :=
  unlessReset (State.arrive (.setNoticeMask notices)) s

/-- ABORT_OPERATION (R189). -/
def execAbortOperation (s : State) : Host.Outcome State Fault Refusal :=
  unlessReset (State.arrive .abortOperation) s

/-- GET_OPERATION_RESULT (R190). -/
def execGetOperationResult (s : State) : Host.Outcome State Fault Refusal :=
  unlessReset (State.arrive .getOperationResult) s

/-- GET_KEY_STATE (R24). -/
def execGetKeyState (first count : Byte) (s : State) : Host.Outcome State Fault Refusal :=
  unlessReset (State.arrive (.getKeyState first count)) s

/-- GET_KEY_COUNTERS (R25). -/
def execGetKeyCounters (first count : Byte) (s : State) : Host.Outcome State Fault Refusal :=
  unlessReset (State.arrive (.getKeyCounters first count)) s

/-- SET_REGULATION (R27). -/
def execSetRegulation (first count : Byte) (entries : List RegFields) (s : State) : Host.Outcome State Fault Refusal :=
  unlessReset (State.arrive (.setRegulation first count entries)) s

/-- GET_REGULATION (R29). -/
def execGetRegulation (first count : Byte) (s : State) : Host.Outcome State Fault Refusal :=
  unlessReset (State.arrive (.getRegulation first count)) s

/-- SET_TOUCH_CURVE (R34). -/
def execSetTouchCurve (points : Vector CurvePoint 9) (s : State) : Host.Outcome State Fault Refusal :=
  unlessReset (State.arrive (.setTouchCurve points)) s

/-- GET_TOUCH_CURVE (R36). -/
def execGetTouchCurve (s : State) : Host.Outcome State Fault Refusal :=
  unlessReset (State.arrive .getTouchCurve) s

/-- GET_PEDAL_STATE (R54). -/
def execGetPedalState (s : State) : Host.Outcome State Fault Refusal :=
  unlessReset (State.arrive .getPedalState) s

/-- SET_PEDAL_MAP (R45). -/
def execSetPedalMap (contact full : Half) (s : State) : Host.Outcome State Fault Refusal :=
  unlessReset (State.arrive (.setPedalMap contact full)) s

/-- SET_RAIL_MODE (R61). -/
def execSetRailMode (code : Byte) (s : State) : Host.Outcome State Fault Refusal :=
  unlessReset (State.arrive (.setRailMode code)) s

/-- CLEAR_RAIL_FAULT (R72). -/
def execClearRailFault (s : State) : Host.Outcome State Fault Refusal :=
  unlessReset (State.arrive .clearRailFault) s

/-- SET_RAIL_DRIVE (R79). -/
def execSetRailDrive (duty : Byte) (s : State) : Host.Outcome State Fault Refusal :=
  unlessReset (State.arrive (.setRailDrive duty)) s

/-- GET_RAIL_STATE (R80). -/
def execGetRailState (s : State) : Host.Outcome State Fault Refusal :=
  unlessReset (State.arrive .getRailState) s

/-- SET_SOUND_OPTIONS (R85). -/
def execSetSoundOptions (option : Byte) (s : State) : Host.Outcome State Fault Refusal :=
  unlessReset (State.arrive (.setSoundOptions option)) s

/-- GET_VOICE_STATE (R106). -/
def execGetVoiceState (first count : Byte) (s : State) : Host.Outcome State Fault Refusal :=
  unlessReset (State.arrive (.getVoiceState first count)) s

/-- READ_WAVE_STORE (R122). -/
def execReadWaveStore (address : Long) (count : Byte) (s : State) : Host.Outcome State Fault Refusal :=
  unlessReset (State.arrive (.readWaveStore address count)) s

/-- GET_ZONE (R123). -/
def execGetZone (first : Half) (count : Byte) (s : State) : Host.Outcome State Fault Refusal :=
  unlessReset (State.arrive (.getZone first count)) s

/-- SET_OUTPUT_GAIN (R131). -/
def execSetOutputGain (channel live playback : Byte) (s : State) : Host.Outcome State Fault Refusal :=
  unlessReset (State.arrive (.setOutputGain channel live playback)) s

/-- SET_ROUTE (R133). -/
def execSetRoute (slot channel side : Byte) (s : State) : Host.Outcome State Fault Refusal :=
  unlessReset (State.arrive (.setRoute slot channel side)) s

/-- GET_OUTPUT (R134). -/
def execGetOutput (s : State) : Host.Outcome State Fault Refusal :=
  unlessReset (State.arrive .getOutput) s

/-- RECORD_START (R144). -/
def execRecordStart (mask : Byte) (s : State) : Host.Outcome State Fault Refusal :=
  unlessReset (State.arrive (.recordStart mask)) s

/-- RECORD_STOP (R146). -/
def execRecordStop (s : State) : Host.Outcome State Fault Refusal :=
  unlessReset (State.arrive .recordStop) s

/-- RECORD_FLUSH (R145). -/
def execRecordFlush (s : State) : Host.Outcome State Fault Refusal :=
  unlessReset (State.arrive .recordFlush) s

/-- READ_RECORD_BLOCK (R147). -/
def execReadRecordBlock (s : State) : Host.Outcome State Fault Refusal :=
  unlessReset (State.arrive .readRecordBlock) s

/-- WRITE_PASSAGE (R152). -/
def execWritePassage (start : Half) (count : Byte) (records : List Record) (s : State) : Host.Outcome State Fault Refusal :=
  unlessReset (State.arrive (.writePassage start count records)) s

/-- READ_PASSAGE (R153). -/
def execReadPassage (start : Half) (count : Byte) (s : State) : Host.Outcome State Fault Refusal :=
  unlessReset (State.arrive (.readPassage start count)) s

/-- WRITE_SEGMENT (R154). -/
def execWriteSegment (number : Byte) (entry : SegFields) (s : State) : Host.Outcome State Fault Refusal :=
  unlessReset (State.arrive (.writeSegment number entry)) s

/-- READ_SEGMENT (R155). -/
def execReadSegment (number : Byte) (s : State) : Host.Outcome State Fault Refusal :=
  unlessReset (State.arrive (.readSegment number)) s

/-- SET_SPLIT (R156). -/
def execSetSplit (key : Byte) (s : State) : Host.Outcome State Fault Refusal :=
  unlessReset (State.arrive (.setSplit key)) s

/-- SET_MASTER_TEMPO (R157). -/
def execSetMasterTempo (tempo : Byte) (s : State) : Host.Outcome State Fault Refusal :=
  unlessReset (State.arrive (.setMasterTempo tempo)) s

/-- PLAY_START (R160). -/
def execPlayStart (segment : Byte) (s : State) : Host.Outcome State Fault Refusal :=
  unlessReset (State.arrive (.playStart segment)) s

/-- PLAY_PAUSE (R169). -/
def execPlayPause (s : State) : Host.Outcome State Fault Refusal :=
  unlessReset (State.arrive .playPause) s

/-- PLAY_RESUME (R170). -/
def execPlayResume (s : State) : Host.Outcome State Fault Refusal :=
  unlessReset (State.arrive .playResume) s

/-- PLAY_STOP (R171). -/
def execPlayStop (s : State) : Host.Outcome State Fault Refusal :=
  unlessReset (State.arrive .playStop) s

/-- PLAY_RESET (R173). -/
def execPlayReset (s : State) : Host.Outcome State Fault Refusal :=
  unlessReset (State.arrive .playReset) s

/-- GET_PLAY_STATUS (R174). -/
def execGetPlayStatus (s : State) : Host.Outcome State Fault Refusal :=
  unlessReset (State.arrive .getPlayStatus) s

end Sys2Proof.Machine
end

