-- ==== Sys2Proof/Machine/EventCommands.lean ====
section
/-! DEFINITION. The meanings of the commands that are events: pins, link characters, sensing, the rail, voices, arrivals and clocks. An event whose rule makes it due only in some states has no effect in the others (notes/assumptions/4.md). -/

namespace Sys2Proof.Machine

/-! ### Pins and reset -/

/-- RESET_N_LOW (R193). -/
def execResetNLow (s : State) : Host.Outcome State Fault Refusal := .next s.heldInReset

/-- RESET_N_HIGH ends the reset that RESET_N held (R193). -/
def execResetNHigh (pins : Pins) (s : State) : Host.Outcome State Fault Refusal :=
  .next (if s.inReset then s.partReset pins else s)

/-- RAIL_GUARD_ASSERTED (R58). Held in reset, only the pin's level is kept, for the end of the reset. -/
def execRailGuardAsserted (s : State) : Host.Outcome State Fault Refusal :=
  let s := s.onRail fun r => { r with guardLow := true }
  .next (if s.inReset then s else s.railFaults .guard)

/-- RAIL_GUARD_RELEASED (R58). -/
def execRailGuardReleased (s : State) : Host.Outcome State Fault Refusal :=
  .next (s.onRail fun r => { r with guardLow := false })

/-! ### The link -/

/-- RECEIVE_BYTE: a character, whose stop bit reads high or low (R175, R177). -/
def execReceiveByte (byte : Byte) (stopHigh : Bool) (s : State) : Host.Outcome State Fault Refusal :=
  unlessReset (if stopHigh then State.takeByte byte else State.brokenByte) s

/-- INTER_BYTE_TIMER_EXPIRY (R177). -/
def execInterByteTimerExpiry (s : State) : Host.Outcome State Fault Refusal := unlessReset State.takeInterByte s

/-- REPLY_SENT (R180, R193): the pins' levels are read when the reply was to RESET PART. -/
def execReplySent (pins : Pins) (s : State) : Host.Outcome State Fault Refusal := unlessReset (State.replySent pins) s

/-! ### Sensing -/

/-- The keys' and the pedals' parts of a scan, in the order the scan takes them (R51; notes/assumptions/9.md). -/
def State.scanSensors (samples : ScanSamples) (s : State) : State :=
  if samples.pedalsFirst then (s.scanPedals samples).scanKeys samples else (s.scanKeys samples).scanPedals samples

/-- A scan, after what the scan before it left due (R2, R21, R43, R57; notes/assumptions/5.md). -/
def State.scan (samples : ScanSamples) (s : State) : State :=
  ((s.takeScanLeftovers.scanSensors samples).scanSwitches samples).scanLearning samples

/-- SCAN (R2). -/
def execScan (samples : ScanSamples) (s : State) : Host.Outcome State Fault Refusal := unlessReset (State.scan samples) s

/-- LEARN_REST_COMPLETE (R21). -/
def execLearnRestComplete (s : State) : Host.Outcome State Fault Refusal := unlessReset State.takeLearning s

/-- The sostenuto's confirmation at the scan of a sample (R46): after that scan when its sample is already counted, and
before it when the sample would be the third (notes/assumptions/9.md). -/
def State.confirmSostenuto (sample : Sample) (s : State) : State :=
  if s.pedals.filter.due then s.takeSostenuto
  else if s.pedals.filter.count = 2 && sostenutoMeets s.pedals.filter.on sample.toNat then s.sostenutoTurns
  else s

/-- SOSTENUTO_CONFIRMED (R46). -/
def execSostenutoConfirmed (sample : Sample) (s : State) : Host.Outcome State Fault Refusal :=
  unlessReset (State.confirmSostenuto sample) s

/-- GATE_SAMPLE: a tick of the action clock, after what the tick before it left due (R4; notes/assumptions/5.md). -/
def execGateSample (g1 g2 : BitVec 88) (s : State) : Host.Outcome State Fault Refusal :=
  unlessReset (fun s => s.takeTickLeftovers.tick g1 g2) s

/-- GATE_CROSSING (R4). -/
def execGateCrossing (key : Key) (gate : Gate) (s : State) : Host.Outcome State Fault Refusal :=
  unlessReset (State.takeCrossing key gate) s

/-- STALE_MARK_SET (R7). -/
def execStaleMarkSet (key : Key) (s : State) : Host.Outcome State Fault Refusal := unlessReset (State.takeStale key) s

/-- GUARD_MARK_SET (R12). -/
def execGuardMarkSet (key : Key) (s : State) : Host.Outcome State Fault Refusal := unlessReset (State.takeGuard key) s

/-- SETTLE_TIMER_EXPIRY (R18). -/
def execSettleTimerExpiry (s : State) : Host.Outcome State Fault Refusal := unlessReset State.takeSettle s

/-! ### The rail -/

/-- END_SWITCH_CONFIRMED (R57). -/
def execEndSwitchConfirmed (switch : RailEnd) (s : State) : Host.Outcome State Fault Refusal :=
  unlessReset (State.takeSwitch switch) s

/-- MOVE_TIMER_EXPIRY (R68). -/
def execMoveTimerExpiry (s : State) : Host.Outcome State Fault Refusal := unlessReset State.takeMoveTimer s

/-! ### Voices -/

/-- The oldest request a source has handed over is taken by the Voice Engine, when it is this one (R83). -/
def State.takeRequestOf (source : Source) (n : NoteRequest) (take : State → State) (s : State) : State :=
  if (s.voice.requests source).head? = some n then take (s.onVoice (VoiceEngine.dropRequest source)) else s

/-- VOICE_STRIKE (R86). -/
def execVoiceStrike (source : Source) (key : Key) (level : Byte) (s : State) : Host.Outcome State Fault Refusal :=
  unlessReset (State.takeRequestOf source (.strike key level) (State.takeStrike source key level)) s

/-- VOICE_RELEASE (R97). -/
def execVoiceRelease (source : Source) (key : Key) (level : Byte) (s : State) : Host.Outcome State Fault Refusal :=
  unlessReset (State.takeRequestOf source (.release key level) (State.takeRelease source key level)) s

/-- A tick of the performance clock (00_scope.md, Time): the clock counts and the move timer runs down, after an expiry
that the tick before it left due (notes/assumptions/5.md). -/
def State.perfTick (s : State) : State :=
  { s.takeMoveTimer with perfClock := s.perfClock + 1 }.onRail fun r => { r with moveTimer := runDown r.moveTimer }

/-- ENVELOPE_TICK: a tick of the performance clock, at which the Voice Engine steps the envelopes (R98). -/
def execEnvelopeTick (s : State) : Host.Outcome State Fault Refusal := unlessReset (fun s => s.perfTick.envelope) s

/-- AUDIO_FRAME (R126); held in reset, the port sends frames of 0 (R125). -/
def execAudioFrame (s : State) : Host.Outcome State Fault Refusal :=
  .next (if s.inReset then s.silentFrame else s.audioFrame)

/-! ### Arrivals on the wave store port -/

/-- A voice fetch arrives with as many samples as it asked for (R117, R120). -/
def State.fetchArrives (data : List Byte) (s : State) : State :=
  match s.wave.port with
  | some (.fetch i generation _ burst) =>
    if data.length = 2 * burst then
      let v := s.voice.voices[i]
      (if v.inUse && v.generation = generation then s.fetchTaken i data else s).freePort
    else s
  | _ => s

/-- FETCH_ARRIVAL (R117). -/
def execFetchArrival (data : List Byte) (s : State) : Host.Outcome State Fault Refusal :=
  unlessReset (State.fetchArrives data) s

/-- The running load takes the data of its read (R110). -/
def State.loadTakes (data : List Byte) (s : State) : State :=
  match s.wave.load with
  | none => s
  | some l =>
    match l.zoneCount with
    | none => s.headerArrives data
    | some count => s.entriesArrive l count data

/-- A zone-load read arrives with as many bytes as it asked for (R110); an aborted load's data is discarded (R112). -/
def State.loadReadArrives (data : List Byte) (s : State) : State :=
  match s.wave.port with
  | some (.loadRead _ count discarded) =>
    if data.length = count then (if discarded then s else s.loadTakes data).freePort else s
  | _ => s

/-- LOAD_READ_ARRIVAL (R110). -/
def execLoadReadArrival (data : List Byte) (s : State) : Host.Outcome State Fault Refusal :=
  unlessReset (State.loadReadArrives data) s

/-- A diagnostic read arrives with as many bytes as it asked for (R122): the dispatcher, which is SERVING its request,
forms the reply (R180). -/
def State.diagnosticArrives (data : List Byte) (s : State) : State :=
  match s.wave.port with
  | some (.diagnostic _ count) =>
    if data.length = count then
      let s := s.freePort
      if s.link.dispatcher = .serving then s.answer ⟨0x32#8, .ok, data⟩ false else s
    else s
  | _ => s

/-- DIAGNOSTIC_READ_ARRIVAL (R122). -/
def execDiagnosticReadArrival (data : List Byte) (s : State) : Host.Outcome State Fault Refusal :=
  unlessReset (State.diagnosticArrives data) s

/-! ### The player -/

/-- PLAYBACK_TICK (R159). -/
def execPlaybackTick (s : State) : Host.Outcome State Fault Refusal := unlessReset State.takePlaybackTick s

end Sys2Proof.Machine
end

