-- ==== Sys2Proof/Machine/Dispatch.lean ====
section
/-! DEFINITION. One arm per command: a direct call of its meaning. -/

namespace Sys2Proof.Machine

def exec (i : Instr) (s : State) : Host.Outcome State Fault Refusal :=
  match i with
  | .resetNLow => Sys2Proof.Machine.execResetNLow s
  | .resetNHigh pins => Sys2Proof.Machine.execResetNHigh pins s
  | .receiveByte byte stopHigh => Sys2Proof.Machine.execReceiveByte byte stopHigh s
  | .interByteTimerExpiry => Sys2Proof.Machine.execInterByteTimerExpiry s
  | .replySent pins => Sys2Proof.Machine.execReplySent pins s
  | .unknownKind kind payload => Sys2Proof.Machine.execUnknownKind kind payload s
  | .getIdentity => Sys2Proof.Machine.execGetIdentity s
  | .getStatus => Sys2Proof.Machine.execGetStatus s
  | .resetPart => Sys2Proof.Machine.execResetPart s
  | .readNotices => Sys2Proof.Machine.execReadNotices s
  | .clearNotices notices => Sys2Proof.Machine.execClearNotices notices s
  | .setNoticeMask notices => Sys2Proof.Machine.execSetNoticeMask notices s
  | .loadZones => Sys2Proof.Machine.execLoadZones s
  | .learnRest => Sys2Proof.Machine.execLearnRest s
  | .railCalibrate => Sys2Proof.Machine.execRailCalibrate s
  | .startup => Sys2Proof.Machine.execStartup s
  | .abortOperation => Sys2Proof.Machine.execAbortOperation s
  | .getOperationResult => Sys2Proof.Machine.execGetOperationResult s
  | .getKeyState first count => Sys2Proof.Machine.execGetKeyState first count s
  | .getKeyCounters first count => Sys2Proof.Machine.execGetKeyCounters first count s
  | .setRegulation first count entries => Sys2Proof.Machine.execSetRegulation first count entries s
  | .getRegulation first count => Sys2Proof.Machine.execGetRegulation first count s
  | .setTouchCurve points => Sys2Proof.Machine.execSetTouchCurve points s
  | .getTouchCurve => Sys2Proof.Machine.execGetTouchCurve s
  | .getPedalState => Sys2Proof.Machine.execGetPedalState s
  | .setPedalMap contact full => Sys2Proof.Machine.execSetPedalMap contact full s
  | .setRailMode code => Sys2Proof.Machine.execSetRailMode code s
  | .clearRailFault => Sys2Proof.Machine.execClearRailFault s
  | .setRailDrive duty => Sys2Proof.Machine.execSetRailDrive duty s
  | .getRailState => Sys2Proof.Machine.execGetRailState s
  | .setSoundOptions option => Sys2Proof.Machine.execSetSoundOptions option s
  | .getVoiceState first count => Sys2Proof.Machine.execGetVoiceState first count s
  | .readWaveStore address count => Sys2Proof.Machine.execReadWaveStore address count s
  | .getZone first count => Sys2Proof.Machine.execGetZone first count s
  | .setOutputGain channel live playback => Sys2Proof.Machine.execSetOutputGain channel live playback s
  | .setRoute slot channel side => Sys2Proof.Machine.execSetRoute slot channel side s
  | .getOutput => Sys2Proof.Machine.execGetOutput s
  | .recordStart mask => Sys2Proof.Machine.execRecordStart mask s
  | .recordStop => Sys2Proof.Machine.execRecordStop s
  | .recordFlush => Sys2Proof.Machine.execRecordFlush s
  | .readRecordBlock => Sys2Proof.Machine.execReadRecordBlock s
  | .writePassage start count records => Sys2Proof.Machine.execWritePassage start count records s
  | .readPassage start count => Sys2Proof.Machine.execReadPassage start count s
  | .writeSegment number entry => Sys2Proof.Machine.execWriteSegment number entry s
  | .readSegment number => Sys2Proof.Machine.execReadSegment number s
  | .setSplit key => Sys2Proof.Machine.execSetSplit key s
  | .setMasterTempo tempo => Sys2Proof.Machine.execSetMasterTempo tempo s
  | .playStart segment => Sys2Proof.Machine.execPlayStart segment s
  | .playPause => Sys2Proof.Machine.execPlayPause s
  | .playResume => Sys2Proof.Machine.execPlayResume s
  | .playStop => Sys2Proof.Machine.execPlayStop s
  | .playReset => Sys2Proof.Machine.execPlayReset s
  | .getPlayStatus => Sys2Proof.Machine.execGetPlayStatus s
  | .scan samples => Sys2Proof.Machine.execScan samples s
  | .learnRestComplete => Sys2Proof.Machine.execLearnRestComplete s
  | .sostenutoConfirmed sample => Sys2Proof.Machine.execSostenutoConfirmed sample s
  | .gateCrossing key gate => Sys2Proof.Machine.execGateCrossing key gate s
  | .staleMarkSet key => Sys2Proof.Machine.execStaleMarkSet key s
  | .guardMarkSet key => Sys2Proof.Machine.execGuardMarkSet key s
  | .settleTimerExpiry => Sys2Proof.Machine.execSettleTimerExpiry s
  | .endSwitchConfirmed switch => Sys2Proof.Machine.execEndSwitchConfirmed switch s
  | .railGuardAsserted => Sys2Proof.Machine.execRailGuardAsserted s
  | .railGuardReleased => Sys2Proof.Machine.execRailGuardReleased s
  | .moveTimerExpiry => Sys2Proof.Machine.execMoveTimerExpiry s
  | .voiceStrike source key level => Sys2Proof.Machine.execVoiceStrike source key level s
  | .voiceRelease source key level => Sys2Proof.Machine.execVoiceRelease source key level s
  | .envelopeTick => Sys2Proof.Machine.execEnvelopeTick s
  | .audioFrame => Sys2Proof.Machine.execAudioFrame s
  | .fetchArrival data => Sys2Proof.Machine.execFetchArrival data s
  | .loadReadArrival data => Sys2Proof.Machine.execLoadReadArrival data s
  | .diagnosticReadArrival data => Sys2Proof.Machine.execDiagnosticReadArrival data s
  | .playbackTick => Sys2Proof.Machine.execPlaybackTick s
  | .gateSample g1 g2 => Sys2Proof.Machine.execGateSample g1 g2 s

end Sys2Proof.Machine
end

