-- ==== Sys2Proof/Machine/Step.lean ====
section
/-! DEFINITION. One step of the part: the command at the front of the queue is taken. -/

namespace Sys2Proof.Machine

/-- The state with the command a table word spells at the front of its queue. No row of the opcode table gives bits, so no
word spells a command and the state is unchanged (notes/assumptions/26.md). -/
def State.withFetchWord (s : State) (nbits w : Nat) : State :=
  match Sys2Proof.decodeTableWord nbits w with
  | some c => { s with pending := c :: s.pending }
  | none => s

/-- One step: the command at the front of the queue, on the state with the queue's rest. On an empty queue the part idles
(notes/assumptions/7.md). -/
def step (s : State) : Host.Outcome State Fault Refusal :=
  match s.pending with
  | [] => .next s
  | c :: rest => exec c { s with pending := rest }

end Sys2Proof.Machine
end

