-- ==== Sys2Proof/Safety.lean ====
section
/-! DEFINITION. The terms that statements use: when a request is taken at once, the request a command carries, and the invariants of each block that every step keeps. -/

namespace Sys2Proof.Machine

/-! ### Requests -/

/-- The dispatcher takes a request that arrives now at once: the part is not held in reset, the dispatcher is IDLE and
nothing waits in the receive queue (R180). -/
def State.taking (s : State) : Prop := s.inReset = false ∧ s.link.dispatcher = .idle ∧ s.link.queue = []

/-- The state in which the reply of a request is being sent (R180). -/
def State.replying (kind : Byte) (status : Status) (payload : List Byte) (s : State) : State :=
  { s with link := { s.link with dispatcher := .sending ⟨kind, status, payload⟩ false } }

/-- The request a command carries, when it is a request command. -/
def requestOf : Instr → Option Request
  | .loadZones => some (.startOperation 1)
  | .learnRest => some (.startOperation 2)
  | .railCalibrate => some (.startOperation 3)
  | .startup => some (.startOperation 0)
  | .getIdentity => some .getIdentity
  | .getStatus => some .getStatus
  | .resetPart => some .resetPart
  | .readNotices => some .readNotices
  | .clearNotices notices => some (.clearNotices notices)
  | .setNoticeMask notices => some (.setNoticeMask notices)
  | .abortOperation => some .abortOperation
  | .getOperationResult => some .getOperationResult
  | .getKeyState first count => some (.getKeyState first count)
  | .getKeyCounters first count => some (.getKeyCounters first count)
  | .setRegulation first count entries => some (.setRegulation first count entries)
  | .getRegulation first count => some (.getRegulation first count)
  | .setTouchCurve points => some (.setTouchCurve points)
  | .getTouchCurve => some .getTouchCurve
  | .getPedalState => some .getPedalState
  | .setPedalMap contact full => some (.setPedalMap contact full)
  | .setRailMode code => some (.setRailMode code)
  | .clearRailFault => some .clearRailFault
  | .setRailDrive duty => some (.setRailDrive duty)
  | .getRailState => some .getRailState
  | .setSoundOptions option => some (.setSoundOptions option)
  | .getVoiceState first count => some (.getVoiceState first count)
  | .readWaveStore address count => some (.readWaveStore address count)
  | .getZone first count => some (.getZone first count)
  | .setOutputGain channel live playback => some (.setOutputGain channel live playback)
  | .setRoute slot channel side => some (.setRoute slot channel side)
  | .getOutput => some .getOutput
  | .recordStart mask => some (.recordStart mask)
  | .recordStop => some .recordStop
  | .recordFlush => some .recordFlush
  | .readRecordBlock => some .readRecordBlock
  | .writePassage start count records => some (.writePassage start count records)
  | .readPassage start count => some (.readPassage start count)
  | .writeSegment number entry => some (.writeSegment number entry)
  | .readSegment number => some (.readSegment number)
  | .setSplit key => some (.setSplit key)
  | .setMasterTempo tempo => some (.setMasterTempo tempo)
  | .playStart segment => some (.playStart segment)
  | .playPause => some .playPause
  | .playResume => some .playResume
  | .playStop => some .playStop
  | .playReset => some .playReset
  | .getPlayStatus => some .getPlayStatus
  | _ => none

/-- A run of commands, taken one after another. -/
def runAll : List Instr → State → Host.Outcome State Fault Refusal
  | [], s => .next s
  | c :: rest, s =>
    match exec c s with
    | .next t => runAll rest t
    | o => o

/-- Nothing that a tick of the action clock makes due is waiting to be taken: no crossing, no mark, no expiry. -/
def State.tickClear (s : State) : Prop :=
  (∀ k : Key, s.scanner.keys[k].g1.count < 3 ∧ s.scanner.keys[k].g2.count < 3
      ∧ s.scanner.keys[k].staleDue s.actionClock = false ∧ s.scanner.keys[k].guardDue s.actionClock = false)
    ∧ s.scanner.settle ≠ some 0 ∧ s.player.tempo ≠ some 0 ∧ s.link.interByte ≠ some 0

/-- Nothing that a scan makes due is waiting to be taken: no confirmation, no completion of rest learning. -/
def State.scanClear (s : State) : Prop :=
  s.pedals.filter.count < 3 ∧ s.rail.switchOpen.count < 3 ∧ s.rail.switchClosed.count < 3
    ∧ ∀ l, s.scanner.learning = some l → l.scans < 256

/-! ### The Control Link -/

/-- The receiver's partial frame fits its LEN (R177). -/
def Receiver.ok : Receiver → Prop
  | .hunt => True
  | .length => True
  | .body len got => got.length < len ∧ len ≤ 255
  | .check len got => got.length = len ∧ len ≤ 255

/-- The Control Link's invariant: the queue holds four frames at most (R179), an IDLE dispatcher leaves none waiting
(R180), the inter-byte timer is stopped exactly in HUNT (R177), and the counters keep their range (R182). -/
def Link.ok (l : Link) : Prop :=
  l.queue.length ≤ 4 ∧ (l.dispatcher = .idle → l.queue = []) ∧ (l.interByte = none ↔ l.receiver = .hunt) ∧ l.receiver.ok
    ∧ l.badCheck ≤ 65535 ∧ l.framing ≤ 65535 ∧ l.overrun ≤ 65535

/-! ### The Rail Controller -/

/-- The end a rail state drives to (R56); none where the drive is OFF. -/
def Rail.drivesTo (r : Rail) : Option RailEnd :=
  match r.state with
  | .homing .driving => some .opened
  | .moving => some r.target
  | .returning _ => r.origin
  | .calibrating .closing => some .closed
  | .calibrating .opening => some .opened
  | _ => none

/-- The duty of a driving state (R56). -/
def Rail.dutyNow (r : Rail) : Nat :=
  match r.state with
  | .homing _ => 50
  | _ => r.moveDuty

/-- A state of a move or of a calibration, which has an origin (R55, R73). -/
def Rail.originOk (r : Rail) : Prop :=
  match r.state with
  | .waitQuiet => r.origin.isSome
  | .moving => r.origin.isSome
  | .returning .retry => r.origin.isSome
  | .returning .calibration => r.origin = some .opened
  | .calibrating _ => r.origin = some .opened
  | _ => True

/-- The collisions a state can have behind it (R66, R67): at most three, and at most two where a move can still start or
is under way. -/
def Rail.attemptsOk (r : Rail) : Prop :=
  match r.state with
  | .waitQuiet => r.attempts ≤ 2
  | .moving => r.attempts ≤ 2
  | _ => r.attempts ≤ 3

/-- The Rail Controller's invariant: the drive is ON, toward the end its state drives to and at its duty, with the move
timer running, exactly in the driving states (R56, R68); a part not held in reset is in FAULT while the guard is asserted
(R58); the numbers keep their ranges (R55). -/
def State.railOk (s : State) : Prop :=
  s.rail.drive = s.rail.drivesTo.map (fun e => ⟨e, s.rail.dutyNow⟩)
    ∧ (s.rail.moveTimer.isSome ↔ s.rail.drivesTo.isSome)
    ∧ (s.inReset = false → s.rail.guardLow = true → ∃ reason, s.rail.state = .fault reason)
    ∧ s.rail.originOk ∧ s.rail.attemptsOk
    ∧ (30 ≤ s.rail.moveDuty ∧ s.rail.moveDuty ≤ 100) ∧ (30 ≤ s.rail.travelDuty ∧ s.rail.travelDuty ≤ 100)
    ∧ (200 ≤ s.rail.travelLimit ∧ s.rail.travelLimit ≤ 3000)

/-! ### The Action Scanner -/

/-- The Action Scanner's invariant: each hammer zone is the one its two filtered levels give (R6), a key in LOW has no
g2_stamp (R7), the flight count is the number of keys not in LOW (R17), and a quiet action has none and its settle timer
has expired (R18). -/
def Scanner.ok (c : Scanner) : Prop :=
  (∀ k : Key, c.keys[k].zone = zoneOfLevels c.keys[k].g1.above c.keys[k].g2.above)
    ∧ (∀ k : Key, c.keys[k].zone = .low → c.keys[k].g2Stamp = none)
    ∧ c.flightCount = (allKeys.filter fun k => c.keys[k].zone != .low).length
    ∧ (c.quiet = true → c.flightCount = 0 ∧ c.settle = none)

/-! ### The Performance Recorder -/

/-- A record block's invariant (R136): an EMPTY block holds nothing, an ACTIVE one fewer than 48 records, a READY one 1
to 48. -/
def RecordBlock.ok (b : RecordBlock) : Prop :=
  match b.state with
  | .empty => b.records = []
  | .active => b.records.length < 48
  | .ready _ => 1 ≤ b.records.length ∧ b.records.length ≤ 48

/-- The Performance Recorder's invariant (R136, R142): at most one block is ACTIVE, none while OFF; the first-lost stamp is
present exactly when events are lost; no event is lost while a block is ACTIVE. -/
def Recorder.ok (r : Recorder) : Prop :=
  r.blockA.ok ∧ r.blockB.ok ∧ ¬ (r.blockA.state = .active ∧ r.blockB.state = .active)
    ∧ (r.recording = false → r.blockA.state ≠ .active ∧ r.blockB.state ≠ .active)
    ∧ (r.firstLost = none ↔ r.lostCount = 0) ∧ r.lostCount ≤ 65535
    ∧ (r.blockA.state = .active ∨ r.blockB.state = .active → r.lostCount = 0)

/-! ### The Practice Player -/

/-- The keys a wait gathers when its lookahead examines that many slots after the due one (R167), in ascending order: the due
record's key, and that of every STRIKE with a muted key among those slots. -/
def Player.gathers (muted : Key → Bool) (due : Key) (examined : Nat) (p : Player) : List Key :=
  allKeys.filter fun k => decide (k = due) || muted k && (List.range examined).any fun i =>
    let r := passageAt p.passage (p.slot + 1 + i)
    r.kind = 1 && r.key.toNat = k.val

/-- The time of the i-th slot after the due one, from 0 (R167): the deltas of the slots up to and including it, and the value
of every GAP record before it. -/
def Player.lookaheadTime (i : Nat) (p : Player) : Nat :=
  ((List.range (i + 1)).map fun j => (passageAt p.passage (p.slot + 1 + j)).delta.toNat).sum
    + ((List.range i).map fun j => let r := passageAt p.passage (p.slot + 1 + j)
        if r.kind = 4 then r.key.toNat + 256 * r.value.toNat else 0).sum

/-- A wait's lookahead examines exactly that many slots after the due one (R167): each lies in the range, at a time of at most
30, with fewer than ten keys gathered before it, and the slot after them does not. -/
def Player.examines (muted : Key → Bool) (due : Key) (examined : Nat) (p : Player) : Prop :=
  let goesOn := fun i => p.slot + 1 + i < p.segment.start + p.segment.count ∧ p.lookaheadTime i ≤ 30
    ∧ (p.gathers muted due i).length < 10
  (∀ i < examined, goesOn i) ∧ ¬ goesOn examined

/-- Every range lies within the passage store (R154): that of the working copy and that of each segment. -/
def Player.rangesOk (p : Player) : Prop :=
  p.segment.start + p.segment.count ≤ 8192 ∧ ∀ i : Fin 32, p.segments[i].start + p.segments[i].count ≤ 8192

/-- The Practice Player's invariant: the passage store is in its canonical form; the tempo counter runs exactly while
RUNNING (R158); the expected-key set is non-empty exactly in WAITING and in PAUSED with WAITING as its resume state (R167);
the held-key set is empty in IDLE and HALTED (R166); both key sets are in ascending order, with no key twice (R150, R166);
every range lies within the passage store (R154). -/
def Player.ok (p : Player) : Prop :=
  passageWf p.passage = true
    ∧ (p.tempo.isSome ↔ p.state = .running)
    ∧ (p.expected ≠ [] ↔ p.state = .waiting ∨ p.state = .pausedWaiting)
    ∧ (p.state = .idle ∨ p.state = .haltedBadEvent ∨ p.state = .haltedChainEmpty → p.held = [])
    ∧ p.held.Pairwise (· < ·) ∧ p.expected.Pairwise (· < ·)
    ∧ p.rangesOk

end Sys2Proof.Machine
end

