-- ==== Sys2Proof/Certificates/Slice0/Obligations.lean ====
section
/-! DEFINITION. The statements for the provers. -/

open Sys2Proof Sys2Proof.Machine

/-- A step takes the command at the front of the queue. That an empty queue idles is the model's choice
(notes/assumptions/7.md). -/
def Obligations.StepTakesTheFrontCommand : Prop :=
  (∀ (c : Instr) (rest : List Instr) (s : State),
      step { s with pending := c :: rest } = exec c { s with pending := rest })
    ∧ ∀ s : State, s.pending = [] → step s = .next s

/-- Every command answers a next state, whatever the state, and no meaning touches the queue of waiting commands. -/
def Obligations.EveryCommandCompletes : Prop :=
  ∀ (c : Instr) (s : State), ∃ t, exec c s = .next t ∧ t.pending = s.pending

/-- RESET_N low and RESET PART (R193, R175, R125): the part is held in reset, ATTN_N and TXD rest high, no character is
sampled and the audio port sends frames of 0; the OK reply of RESET PART is sent in full, and the part then resets exactly as
from RESET_N, held for no time. -/
def Obligations.ResetIsHeldAndReleased : Prop :=
  (∀ s : State, ∃ t, exec .resetNLow s = .next t ∧ t.inReset = true ∧ t.attnLow = false ∧ t.frameBytes = []
    ∧ t.rail.drive = none ∧ t.pending = s.pending
    ∧ (∀ byte stopHigh, exec (.receiveByte byte stopHigh) t = .next t)
    ∧ ∃ u, exec .audioFrame t = .next u ∧ u.audio.sent = Vector.replicate 8 0)
  ∧ ((∀ s : State, s.taking → exec .resetPart s
      = .next { s with link := { s.link with dispatcher := .sending ⟨0x03#8, .ok, []⟩ true } })
    ∧ ∀ (s : State) (pins : Pins) (r : Reply), s.inReset = false → s.link.dispatcher = .sending r true →
      exec (.replySent pins) s = exec (.resetNHigh pins) { s with inReset := true })

/-- RESET_N high (R193): the values that the chapters state for a part reset, the levels of the pins as the filtered levels
(R1, R55), the flight count they give (R17), the load step of STARTUP under way with its header read on the free port (R110,
R119, R188), and the rail's entry to HOMING (R59) by the guard and the two switches. -/
def Obligations.ResetEndsWithStatedValues : Prop :=
  (∀ (s : State) (pins : Pins), s.inReset = true → ∃ t, exec (.resetNHigh pins) s = .next t ∧ t.inReset = false
    ∧ t.actionClock = 0 ∧ t.perfClock = 0
    ∧ (t.link.receiver = .hunt ∧ t.link.interByte = none ∧ t.link.queue = [] ∧ t.link.dispatcher = .idle ∧ t.link.maskSet = 0
      ∧ t.link.badCheck = 0 ∧ t.link.framing = 0 ∧ t.link.overrun = 0 ∧ t.link.slot = .running .startup)
    ∧ (t.scanner.ready = false ∧ t.scanner.quiet = false ∧ t.scanner.settle = some 20000 ∧ t.scanner.lastLanding = none
      ∧ t.scanner.learning = none
      ∧ t.scanner.flightCount = (allKeys.filter fun k => pins.g1.getLsbD k.val || pins.g2.getLsbD k.val).length)
    ∧ (∀ k : Key, t.scanner.keys[k] = {
        phase := .idle
        zone := if pins.g1.getLsbD k.val then .high else if pins.g2.getLsbD k.val then .mid else .low
        travel := 0, history := #v[0, 0, 0, 0, 0]
        g1 := ⟨pins.g1.getLsbD k.val, 0⟩, g2 := ⟨pins.g2.getLsbD k.val, 0⟩
        g2Stamp := none, strikeStamp := none, prevStrikeStamp := none, lastLevel := 0, lastRelease := 0
        strikes := 0, missed := 0, orphan := 0, rebound := 0, gateFault := 0 })
    ∧ t.touch = TouchUnit.reset ∧ t.pedals = PedalUnit.reset ∧ t.voice = VoiceEngine.reset ∧ t.audio = AudioPort.reset
    ∧ t.recorder = Recorder.reset ∧ t.player = Player.reset
    ∧ (t.wave.zones = [] ∧ t.wave.summary = ⟨.none, none, 0, 0⟩ ∧ t.wave.load = some ⟨none, 0, 0, 0, false⟩
      ∧ t.wave.port = some (.loadRead 0 8 false) ∧ t.wave.diagnostics = []
      ∧ ∀ i : VoiceIx, t.wave.buffers[i] = ⟨[], 0, false, false, false⟩)
    ∧ (t.rail.travelDuty = 70 ∧ t.rail.moveDuty = 70 ∧ t.rail.travelLimit = 1500 ∧ t.rail.closingTime = none
      ∧ t.rail.openingTime = none ∧ t.rail.attempts = 0 ∧ t.rail.drive = none ∧ t.rail.moveTimer = none
      ∧ t.rail.switchOpen = ⟨pins.endOpen, 0⟩ ∧ t.rail.switchClosed = ⟨pins.endClosed, 0⟩
      ∧ t.rail.guardLow = s.rail.guardLow))
  ∧ (∀ (s : State) (pins : Pins), s.inReset = true → ∃ t, exec (.resetNHigh pins) s = .next t
    ∧ t.rail.target = .opened ∧ t.rail.origin = none
    ∧ if s.rail.guardLow then t.rail.state = .fault .guard ∧ t.pendingNotices = Notice.railFault.bit
      else if pins.endOpen && pins.endClosed then
        t.rail.state = .fault .switchConflict ∧ t.pendingNotices = Notice.railFault.bit
      else if pins.endOpen then t.rail.state = .opened ∧ t.pendingNotices = Notice.railDone.bit
      else t.rail.state = .homing .waiting ∧ t.pendingNotices = 0)

/-- The frame receiver (R175, R177), a character at a time, and its framing errors: a LEN of 0, a broken character inside a
frame, and the expiry of the inter-byte timer. That SOF starts the timer too is the model's reading
(notes/assumptions/13.md). -/
def Obligations.ReceiverFollowsTheFrame : Prop :=
  (∀ (s : State) (b : Byte), s.inReset = false →
    (s.link.receiver = .hunt → exec (.receiveByte b true) s
      = .next (if b = 0xD5#8 then { s with link := { s.link with receiver := .length, interByte := some 1000 } } else s))
    ∧ (s.link.receiver = .length → b ≠ 0 → exec (.receiveByte b true) s
      = .next { s with link := { s.link with receiver := .body b.toNat [], interByte := some 1000 } })
    ∧ (∀ len got, s.link.receiver = .body len got → exec (.receiveByte b true) s
      = .next { s with link := { s.link with
          receiver := if got.length + 1 < len then .body len (got ++ [b]) else .check len (got ++ [b])
          interByte := some 1000 } })
    ∧ (s.link.receiver = .hunt → exec (.receiveByte b false) s = .next s))
  ∧ (∀ (s : State) (b : Byte), s.inReset = false →
    let t := { s with link := { s.link with
      receiver := .hunt, interByte := none, framing := min 65535 (s.link.framing + 1)
      pendingSet := s.link.pendingSet ||| Notice.linkError.bit } }
    s.link.framing ≤ 65535 →
    (s.link.receiver = .length → exec (.receiveByte 0 true) s = .next t)
    ∧ (s.link.receiver ≠ .hunt → exec (.receiveByte b false) s = .next t)
    ∧ (s.link.interByte = some 0 → exec .interByteTimerExpiry s = .next t))

/-- A complete frame (R178): a bad check is counted, raises LINK_ERROR and is dropped; a good one is offered to the queue; in
either case the receiver is in HUNT. -/
def Obligations.CompleteFrameIsChecked : Prop :=
  ∀ (s : State) (len : Nat) (body : List Byte) (chk : Byte),
    s.inReset = false → s.link.receiver = .check len body → s.link.badCheck ≤ 65535 →
    exec (.receiveByte chk true) s
      = .next (if crc8 (BitVec.ofNat 8 len :: body) = chk then
          State.offerBody body { s with link := { s.link with receiver := .hunt, interByte := none } }
        else { s with link := { s.link with
          receiver := .hunt, interByte := none, badCheck := min 65535 (s.link.badCheck + 1)
          pendingSet := s.link.pendingSet ||| Notice.linkError.bit } })

/-- A whole frame, byte by byte from HUNT, brings its body to the receive queue and leaves the receiver in HUNT (R176 to
R178); the check byte is a remainder, so that LEN, body and CHK together leave its register at 0. -/
def Obligations.WholeFrameReachesTheQueue : Prop :=
  (∀ (s : State) (body : List Byte), s.inReset = false → s.link.receiver = .hunt → 1 ≤ body.length → body.length ≤ 255 →
    runAll ((frame body).map fun b => .receiveByte b true) s
      = .next (State.offerBody body { s with link := { s.link with interByte := none } }))
  ∧ (∀ bytes : List Byte, crc8 (bytes ++ [crc8 bytes]) = 0)

/-- Every request, with every operand that a frame can carry, is read back from the body of its frame, and a body that spells
a request is the body of that request, with the count it carries (11.3, R195). -/
def Obligations.RequestsReadBackFromTheirBytes : Prop :=
  (∀ r : Request, r.lengthOk = true → parseBody r.body = .request r)
  ∧ (∀ (body : List Byte) (r : Request), parseBody body = .request r → r.body = body ∧ r.lengthOk = true)

/-- UNKNOWN_KIND, of every kind code that names no request and of every one of 0x80 or above, and BAD_LENGTH, of a request
whose entries are not as many as its count says; nothing else changes (R181, R195). A frame that RECEIVE_BYTE completes is
refused so too: with UNKNOWN_KIND, or with BAD_LENGTH when its kind is known and its bytes are those of no request of the
length that the kind has or that its count gives. -/
def Obligations.BadKindsAndLengthsAreRefused : Prop :=
  ((∀ (s : State) (kind : Byte) (payload : List Byte), s.taking → isKind kind = false →
      exec (.unknownKind kind payload) s = .next (s.replying kind .unknownKind []))
    ∧ (∀ kind : Byte, isKind kind = true ↔ ∃ r : Request, r.kind = kind)
    ∧ ∀ kind : Byte, 0x80 ≤ kind.toNat → isKind kind = false)
  ∧ ((∀ (s : State) (first count : Byte) (entries : List RegFields), s.taking → entries.length ≠ count.toNat →
      exec (.setRegulation first count entries) s = .next (s.replying 0x12#8 .badLength []))
    ∧ ∀ (s : State) (start : Half) (count : Byte) (records : List Record), s.taking → records.length ≠ count.toNat →
      exec (.writePassage start count records) s = .next (s.replying 0x50#8 .badLength []))
  ∧ ∀ (s : State) (kind chk : Byte) (payload : List Byte), s.taking →
    s.link.receiver = .check (payload.length + 1) (kind :: payload) →
    crc8 (BitVec.ofNat 8 (payload.length + 1) :: kind :: payload) = chk →
    let t := { s with link := { s.link with receiver := .hunt, interByte := none } }
    (isKind kind = false → exec (.receiveByte chk true) s = .next (t.replying kind .unknownKind []))
    ∧ (isKind kind = true → (∀ r : Request, r.lengthOk = true → r.body ≠ kind :: payload) →
      exec (.receiveByte chk true) s = .next (t.replying kind .badLength []))

/-- A request that arrives while another is in hand waits in the receive queue, and a fifth is an overrun (R179). That a
request command sent while the dispatcher is SERVING or SENDING stands for the arrival of its frame is the model's reading
(notes/assumptions/3.md). -/
def Obligations.RequestsWaitOrOverrun : Prop :=
  ∀ (c : Instr) (r : Request) (s : State), requestOf c = some r → s.inReset = false → s.link.dispatcher ≠ .idle →
    (s.link.queue.length < 4 → exec c s = .next { s with link := { s.link with queue := s.link.queue ++ [r.body] } })
    ∧ (s.link.queue.length = 4 → s.link.overrun ≤ 65535 → exec c s = .next { s with link := { s.link with
        overrun := min 65535 (s.link.overrun + 1), pendingSet := s.link.pendingSet ||| Notice.linkError.bit } })

/-- The end of a reply (R180): the dispatcher is IDLE when nothing waits, and otherwise takes the oldest frame, which leaves
the queue and acts as its command does when it is taken at once. -/
def Obligations.RepliesTakeTheNextFrame : Prop :=
  ∀ (s : State) (pins : Pins) (reply : Reply), s.inReset = false → s.link.dispatcher = .sending reply false →
    (s.link.queue = [] → exec (.replySent pins) s = .next { s with link := { s.link with dispatcher := .idle } })
    ∧ (∀ (r : Request) (rest : List (List Byte)), r.lengthOk = true → s.link.queue = r.body :: rest →
      exec (.replySent pins) s
        = .next (State.takeRequest r { s with link := { s.link with dispatcher := .idle, queue := rest } }))
    ∧ (∀ (c : Instr) (r : Request), requestOf c = some r → r.lengthOk = true → s.link.queue = [r.body] →
      exec (.replySent pins) s = exec c { s with link := { s.link with dispatcher := .idle, queue := [] } })

/-- READ NOTICES, CLEAR NOTICES and SET NOTICE MASK (R184, R148); ATTN_N is low exactly while a notice is both pending and
unmasked, and never while RESET_N is low (R185); RECORD_READY is pending exactly while a block is READY (R148), and raising
another notice makes it and no other pending (R183). -/
def Obligations.NoticeRequestsActOnTheSet : Prop :=
  (∀ (s : State) (set : Half), s.taking →
    exec .readNotices s = .next (s.replying 0x04#8 .ok (noticeBytes s.pendingNotices ++ noticeBytes s.link.maskSet))
    ∧ (2048 ≤ set.toNat → exec (.clearNotices set) s = .next (s.replying 0x05#8 .badValue [])
      ∧ exec (.setNoticeMask set) s = .next (s.replying 0x06#8 .badValue []))
    ∧ (set.toNat < 2048 →
      (∃ t : State, exec (.clearNotices set) s = .next (t.replying 0x05#8 .ok []) ∧ t = { s with link := t.link }
        ∧ t.link = { s.link with pendingSet := t.link.pendingSet }
        ∧ ∀ n : Notice, t.isPending n = (s.isPending n && (n = .recordReady || !set.getLsbD n.code)))
      ∧ ∃ t : State, exec (.setNoticeMask set) s = .next (t.replying 0x06#8 .ok []) ∧ t = { s with link := t.link }
        ∧ t.link = { s.link with maskSet := t.link.maskSet }
        ∧ ∀ n : Notice, t.isMasked n = set.getLsbD n.code))
  ∧ (∀ s : State, s.attnLow = true ↔ s.inReset = false ∧ ∃ n : Notice, s.isPending n = true ∧ s.isMasked n = false)
  ∧ (∀ s : State, s.isPending .recordReady = s.recorder.anyReady)
  ∧ ∀ (s : State) (n m : Notice), n ≠ .recordReady → (s.raise n).isPending m = (decide (m = n) || s.isPending m)

/-- The readings with no payload (R191, R192, R36, R54, R80, R134, R174), accepted in every state of their blocks, and the
readings of a run (R24, R29, R106, R123, R153), whose run is checked: an accepted request returns what its rule lists and no
state changes. Where R194 gives a layout only in general terms the bytes are the model's reading, among them the loading flag
of GET VOICE STATE and the enable setting of GET KEY STATE (notes/assumptions/14.md); the codes of the player's next segment
and of its resume state are the model's choice (notes/assumptions/33.md and 34.md). -/
def Obligations.ReadingsChangeNothing : Prop :=
  (∀ s : State, s.taking →
    exec .getIdentity s = .next (s.replying 0x01#8 .ok [0xA0#8, 0x08#8, 1, 1])
    ∧ exec .getStatus s = .next (s.replying 0x02#8 .ok s.statusBytes)
    ∧ exec .getTouchCurve s = .next (s.replying 0x15#8 .ok (s.touch.curve.toList.flatMap TouchPoint.bytes))
    ∧ exec .getPedalState s = .next (s.replying 0x20#8 .ok s.pedals.statusBytes)
    ∧ exec .getRailState s = .next (s.replying 0x2B#8 .ok s.railBytes)
    ∧ exec .getOutput s = .next (s.replying 0x3A#8 .ok s.audio.statusBytes)
    ∧ exec .getPlayStatus s = .next (s.replying 0x5B#8 .ok s.player.statusBytes))
  ∧ ∀ (s : State) (first count : Byte) (start : Half), s.taking →
    exec (.getKeyState first count) s
      = .next (if 1 ≤ count.toNat ∧ count.toNat ≤ 12 ∧ first.toNat ≤ 87 ∧ first.toNat + count.toNat ≤ 88 then
          s.replying 0x10#8 .ok (s.keyStateBytes first.toNat count.toNat) else s.replying 0x10#8 .badValue [])
    ∧ exec (.getRegulation first count) s
      = .next (if 1 ≤ count.toNat ∧ count.toNat ≤ 16 ∧ first.toNat ≤ 87 ∧ first.toNat + count.toNat ≤ 88 then
          s.replying 0x13#8 .ok
            ([first, count] ++ (keysOf first.toNat count.toNat).flatMap fun k => s.touch.table[k].fields.bytes)
        else s.replying 0x13#8 .badValue [])
    ∧ exec (.getVoiceState first count) s
      = .next (if count.toNat ≤ 8 ∧ first.toNat ≤ 95 ∧ first.toNat + count.toNat ≤ 96 then
          s.replying 0x31#8 .ok (s.voiceBytes first.toNat count.toNat) else s.replying 0x31#8 .badValue [])
    ∧ exec (.getZone start count) s
      = .next (if s.wave.load.isSome then s.replying 0x33#8 .busy []
        else if count.toNat ≤ 8 ∧ start.toNat + count.toNat ≤ s.wave.zones.length then
          s.replying 0x33#8 .ok (s.wave.zoneBytes start.toNat count.toNat)
        else s.replying 0x33#8 .badValue [])
    ∧ exec (.readPassage start count) s
      = .next (if 1 ≤ count.toNat ∧ count.toNat ≤ 60 ∧ start.toNat ≤ 8191 ∧ start.toNat + count.toNat ≤ 8192 then
          s.replying 0x51#8 .ok (halfBytes start ++ [count]
            ++ (passageRun s.player.passage start.toNat count.toNat).flatMap Record.bytes)
        else s.replying 0x51#8 .badValue [])

/-- START OPERATION (R186): refused with BAD_VALUE for a code above 3, which only RECEIVE_BYTE can bring, and with BUSY while
an operation runs, and otherwise begun at once. A load frees every voice, empties the buffers and the zone table, and puts its
header read on the port when the port is free (R104, R110, R188); rest learning begins to collect (R21); RAIL CALIBRATE is
accepted at OPEN only, where it waits for quiet or begins its first leg at once (R63, R73, R74). -/
def Obligations.OperationsBegin : Prop :=
  (∀ s : State, s.taking →
    (∀ op, s.link.slot = .running op → exec .loadZones s = .next (s.replying 0x07#8 .busy [])
      ∧ exec .learnRest s = .next (s.replying 0x07#8 .busy []) ∧ exec .startup s = .next (s.replying 0x07#8 .busy [])
      ∧ exec .railCalibrate s = .next (s.replying 0x07#8 .busy []))
    ∧ ((∀ op, s.link.slot ≠ .running op) →
      exec .learnRest s = .next (State.replying 0x07#8 .ok [] { s with
        scanner := { s.scanner with learning := some ⟨0, Vector.replicate 90 ⟨0, 1023, 0⟩⟩ }
        link := { s.link with slot := .running .learnRest } })
      ∧ ∀ c op, (c = .loadZones ∧ op = .loadZones) ∨ (c = .startup ∧ op = .startup) →
        ∃ voices port load, exec c s = .next (State.replying 0x07#8 .ok [] { s with
            voice := { s.voice with voices := voices }
            wave := { s.wave with
              zones := [], load := some load, buffers := Vector.replicate 96 Buffer.reset, port := port }
            link := { s.link with slot := .running op } })
          ∧ (∀ i : VoiceIx, voices[i] = if s.voice.voices[i].state = .free then s.voice.voices[i]
              else { s.voice.voices[i] with state := .free, primed := false, hold := .none })
          ∧ if s.wave.port = none then port = some (.loadRead 0 8 false) ∧ load = ⟨none, 0, 0, 0, false⟩
            else port = s.wave.port ∧ load = ⟨none, 0, 0, 0, true⟩))
  ∧ (∀ s : State, s.taking → (∀ op, s.link.slot ≠ .running op) →
    (s.rail.state = .opened → s.scanner.quiet = false → exec .railCalibrate s
      = .next (State.replying 0x07#8 .ok [] { s with
        rail := { s.rail with
          state := .calibrating .waitClose, drive := none, moveTimer := none, moveDuty := s.rail.travelDuty
          attempts := 0, origin := some .opened, target := .closed }
        link := { s.link with slot := .running .railCalibrate } }))
    ∧ (s.rail.state = .opened → s.scanner.quiet = true → exec .railCalibrate s
      = .next (State.replying 0x07#8 .ok [] { s with
        rail := { s.rail with
          state := .calibrating .closing, drive := some ⟨.closed, s.rail.travelDuty⟩, moveTimer := some s.rail.travelLimit
          legStart := s.perfClock, moveDuty := s.rail.travelDuty
          attempts := 0, origin := some .opened, target := .closed }
        link := { s.link with slot := .running .railCalibrate } }))
    ∧ ((s.rail.state = .closed ∨ ∃ reason, s.rail.state = .fault reason) →
      exec .railCalibrate s = .next (s.replying 0x07#8 .wrongState []))
    ∧ ((s.rail.state = .waitQuiet ∨ s.rail.state = .moving ∨ (∃ kind, s.rail.state = .returning kind)
        ∨ (∃ phase, s.rail.state = .homing phase) ∨ ∃ phase, s.rail.state = .calibrating phase) →
      exec .railCalibrate s = .next (s.replying 0x07#8 .busy [])))
  ∧ ∀ (s : State) (code chk : Byte), s.taking → 4 ≤ code.toNat → s.link.receiver = .check 2 [0x07#8, code] →
    crc8 [0x02#8, 0x07#8, code] = chk → exec (.receiveByte chk true) s = .next (State.replying 0x07#8 .badValue []
      { s with link := { s.link with receiver := .hunt, interByte := none } })

/-- ABORT OPERATION (R189): the slot becomes FINISHED with ABORTED, OP_DONE is raised, and the owning block stops its work: a
load (R112), rest learning (R22), or a calibration by its phase (R78). -/
def Obligations.AbortEndsTheOperation : Prop :=
  ∀ s : State, s.taking →
    let ended := fun (op : Operation) (details : Details) =>
      { s.link with slot := .finished op .aborted details, pendingSet := s.link.pendingSet ||| Notice.opDone.bit }
    let settled : LoadSummary := ⟨.aborted, none, 0, 0⟩
    ((∀ op, s.link.slot ≠ .running op) → exec .abortOperation s = .next (s.replying 0x08#8 .ok []))
    ∧ (s.link.slot = .running .learnRest → exec .abortOperation s
      = .next (State.replying 0x08#8 .ok [] { s with
        scanner := { s.scanner with learning := none }, link := ended .learnRest .nothing }))
    ∧ (s.link.slot = .running .startup → s.wave.load = none → exec .abortOperation s
      = .next (State.replying 0x08#8 .ok [] { s with
        scanner := { s.scanner with learning := none }, link := ended .startup (.load s.wave.summary) }))
    ∧ (∀ op p, (op = .loadZones ∨ op = .startup ∧ s.wave.load.isSome) → s.link.slot = .running op → s.wave.port = some p →
      exec .abortOperation s = .next (State.replying 0x08#8 .ok [] { s with
        wave := { s.wave with
          zones := [], load := none, summary := settled
          port := match p with
            | .loadRead address count _ => some (.loadRead address count true)
            | other => some other }
        link := ended op (.load settled) }))
    ∧ (s.link.slot = .running .railCalibrate →
      let next := fun rail => exec .abortOperation s
        = .next (State.replying 0x08#8 .ok [] { s with rail := rail, link := ended .railCalibrate .nothing })
      (s.rail.state = .calibrating .waitClose → next { s.rail with state := .opened, drive := none, moveTimer := none })
      ∧ (s.rail.state = .calibrating .closing → next { s.rail with
          state := .returning .calibration, drive := some ⟨.opened, s.rail.moveDuty⟩
          moveTimer := some s.rail.travelLimit })
      ∧ (s.rail.state = .calibrating .waitOpen → s.scanner.quiet = false → next { s.rail with
          state := .waitQuiet, drive := none, moveTimer := none, target := .opened, origin := some .closed, attempts := 0 })
      ∧ (s.rail.state = .calibrating .opening → next { s.rail with state := .returning .calibration }))

/-- GET OPERATION RESULT delivers a result once (R190). -/
def Obligations.ResultIsDeliveredOnce : Prop :=
  ∀ s : State, s.taking →
    (∀ op, s.link.slot = .running op → exec .getOperationResult s = .next (s.replying 0x09#8 .busy []))
    ∧ (s.link.slot = .empty → exec .getOperationResult s = .next (s.replying 0x09#8 .notReady []))
    ∧ (∀ op outcome details, s.link.slot = .finished op outcome details →
      exec .getOperationResult s = .next (State.replying 0x09#8 .ok (resultBytes op outcome details)
        { s with link := { s.link with slot := .empty } })
      ∧ ∃ t, exec .learnRest s = .next t ∧ t.link.slot = .running .learnRest)
    ∧ (∃ t, exec .getStatus s = .next t ∧ t.link.slot = s.link.slot)
    ∧ ∀ set, ∃ t, exec (.clearNotices set) s = .next t ∧ t.link.slot = s.link.slot

/-- A tick of the action clock with nothing left due (R4, R18, R158, R177): every gate's count of agreeing samples and the
three timers of this clock, and nothing else. That a third agreeing sample is left due as a count of 3, and that the
inter-byte timer of R177 runs on this clock, are the model's (notes/assumptions/5.md and 13.md). -/
def Obligations.TickSamplesEveryGate : Prop :=
  ∀ (s : State) (g1 g2 : BitVec 88), s.inReset = false → s.tickClear → ∃ keys : Vector KeyRecord 88,
    exec (.gateSample g1 g2) s = .next { s with
      actionClock := s.actionClock + 1
      scanner := { s.scanner with keys := keys, settle := s.scanner.settle.map fun n => n - 1 }
      player := { s.player with tempo := s.player.tempo.map fun n => n - 1 }
      link := { s.link with interByte := s.link.interByte.map fun n => n - 1 } }
    ∧ ∀ k : Key, keys[k] = { s.scanner.keys[k] with
        g1 := { s.scanner.keys[k].g1 with
          count := if g1.getLsbD k.val = s.scanner.keys[k].g1.above then 0 else s.scanner.keys[k].g1.count + 1 }
        g2 := { s.scanner.keys[k].g2 with
          count := if g2.getLsbD k.val = s.scanner.keys[k].g2.above then 0 else s.scanner.keys[k].g2.count + 1 } }

/-- The stale mark (R7), the guard mark (R12) and the settle timer's expiry (R18), when they are due, with the grant that
quiet gives a waiting rail (R60, R63, R74). That one which is not due has no effect is the model's choice
(notes/assumptions/4.md). -/
def Obligations.ExpiriesAndMarksAreTakenWhenDue : Prop :=
  (∀ (s : State) (key : Key), s.inReset = false →
    let with' := fun r => { s with scanner := { s.scanner with keys := s.scanner.keys.set key r } }
    (∀ stamp high, s.scanner.keys[key].g2Stamp = some ⟨stamp, high, false⟩ → exec (.staleMarkSet key) s
      = .next (if 40003 ≤ (s.actionClock - stamp).toNat then
          with' { s.scanner.keys[key] with g2Stamp := some ⟨stamp, high, true⟩ } else s))
    ∧ (∀ stamp, s.scanner.keys[key].strikeStamp = some ⟨stamp, false⟩ → exec (.guardMarkSet key) s
      = .next (if 20002 ≤ (s.actionClock - stamp).toNat then
          with' { s.scanner.keys[key] with strikeStamp := some ⟨stamp, true⟩ } else s))
    ∧ (s.scanner.keys[key].g2Stamp = none → exec (.staleMarkSet key) s = .next s)
    ∧ (s.scanner.keys[key].strikeStamp = none → exec (.guardMarkSet key) s = .next s))
  ∧ (∀ s : State, s.inReset = false →
    (s.scanner.settle ≠ some 0 → exec .settleTimerExpiry s = .next s)
    ∧ (s.scanner.settle = some 0 → s.scanner.flightCount ≠ 0 →
      exec .settleTimerExpiry s = .next { s with scanner := { s.scanner with settle := none } })
    ∧ (s.scanner.settle = some 0 → s.scanner.flightCount = 0 → exec .settleTimerExpiry s
      = .next { s with
        scanner := { s.scanner with settle := none, quiet := true }
        rail := match s.rail.state with
          | .waitQuiet => { s.rail with
              state := .moving, moveDuty := s.rail.travelDuty, drive := some ⟨s.rail.target, s.rail.travelDuty⟩
              moveTimer := some s.rail.travelLimit }
          | .homing .waiting => { s.rail with
              state := .homing .driving, drive := some ⟨.opened, 50⟩, moveTimer := some 3000 }
          | .calibrating .waitClose => { s.rail with
              state := .calibrating .closing, drive := some ⟨.closed, s.rail.moveDuty⟩
              moveTimer := some s.rail.travelLimit, legStart := s.perfClock }
          | .calibrating .waitOpen => { s.rail with
              state := .calibrating .opening, drive := some ⟨.opened, s.rail.moveDuty⟩
              moveTimer := some s.rail.travelLimit, legStart := s.perfClock }
          | _ => s.rail }))

/-- A G1 upward crossing accepted as a strike (R10, R12, R14, R30): the key record, and the live events in their order. A live
event is handed to the Voice Engine, offered to the recorder and, a STRIKE, matched by the player (R16), which take it by
their own statements; that the recorder comes before the player is the model's reading (notes/assumptions/18.md). -/
def Obligations.StrikesAreAccepted : Prop :=
  (∀ (s : State) (key : Key) (g : G2Stamp), s.inReset = false → s.scanner.ok →
    let k := s.scanner.keys[key]
    let stamp := s.actionClock - 2
    let interval := (stamp - g.stamp).toNat
    let guard := if s.rail.state = .closed then 20000 else 8000
    let level := touchLevel s.touch.inEffect[key] s.touch.curve interval
    k.g1 = ⟨false, 3⟩ → k.g2.count < 3 → s.scanner.ready = true → s.touch.inEffect[key].enabled = true →
    (k.phase = .travel ∨ k.phase = .rearmed) → k.g2Stamp = some g → g.stale = false → interval ≤ 40000 →
    (∀ st, k.strikeStamp = some st → st.guardMark = true ∨ guard ≤ (stamp - st.stamp).toNat) → k.strikes ≤ 65535 →
    let struck := { s with scanner := { s.scanner with keys := s.scanner.keys.set key { k with
      g1 := ⟨true, 0⟩, zone := .high, phase := .struck, g2Stamp := some { g with reachedHigh := true }
      prevStrikeStamp := k.strikeStamp.map StrikeStamp.stamp, strikeStamp := some ⟨stamp, false⟩
      lastLevel := level, strikes := min 65535 (k.strikes + 1) } } }
    let released := if k.phase = .rearmed then struck.emitLive (.release key (BitVec.ofNat 8 k.lastRelease)) else struck
    exec (.gateCrossing key .g1) s = .next (released.emitLive (.strike key (BitVec.ofNat 8 level))))
  ∧ ∀ (s : State) (n : NoteRequest),
      let asked := { s with voice := { s.voice with liveRequests := s.voice.liveRequests ++ [n] } }
      (∀ key level, n = .strike key level →
        s.emitLive n = State.matchStrike key (State.offer .live (.strike key level) asked))
      ∧ (∀ key level, n = .release key level → s.emitLive n = State.offer .live (.release key level) asked)
      ∧ (s.emitLive n).voice.liveRequests = s.voice.liveRequests ++ [n]
      ∧ (s.emitLive n).scanner = s.scanner ∧ (s.emitLive n).rail = s.rail

/-- A G1 upward crossing that is no strike (R11, R20, R23): its class's counter, and a key that is disabled or a Scanner that
is NOT_READY counts none. -/
def Obligations.CrossingsAreClassified : Prop :=
  ∀ (s : State) (key : Key), s.inReset = false → s.scanner.ok →
    let k := s.scanner.keys[key]
    let stamp := s.actionClock - 2
    let guard := if s.rail.state = .closed then 20000 else 8000
    let risen := { k with
      g1 := ⟨true, 0⟩, zone := .high, g2Stamp := k.g2Stamp.map fun g => { g with reachedHigh := true } }
    let fault := if k.g2.above then k.gateFault else min 65535 (k.gateFault + 1)
    let next := fun r : KeyRecord => exec (.gateCrossing key .g1) s
      = .next { s with scanner := { s.scanner with
          keys := s.scanner.keys.set key r
          flightCount := s.scanner.flightCount + (if k.g2.above then 0 else 1)
          quiet := k.g2.above && s.scanner.quiet } }
    k.g1 = ⟨false, 3⟩ → k.g2.count < 3 →
    (k.orphan ≤ 65535 ∧ k.gateFault ≤ 65535 ∧ k.missed ≤ 65535 ∧ k.rebound ≤ 65535) →
    ((s.scanner.ready = false ∨ s.touch.inEffect[key].enabled = false) → next risen)
    ∧ (s.scanner.ready = true → s.touch.inEffect[key].enabled = true →
      ((k.phase = .idle ∨ k.phase = .struck) → next { risen with orphan := min 65535 (k.orphan + 1), gateFault := fault })
      ∧ ((k.phase = .travel ∨ k.phase = .rearmed) →
        (k.g2Stamp = none → next { risen with gateFault := min 65535 (k.gateFault + 1) })
        ∧ ∀ g, k.g2Stamp = some g →
          (g.stale = true ∨ 40000 < (stamp - g.stamp).toNat → next { risen with missed := min 65535 (k.missed + 1) })
          ∧ (g.stale = false → (stamp - g.stamp).toNat ≤ 40000 → ∀ st, k.strikeStamp = some st →
            st.guardMark = false → (stamp - st.stamp).toNat < guard →
            next { risen with rebound := min 65535 (k.rebound + 1) })))

/-- A G2 upward crossing (R6, R7, R17, R19), also where G1's own rise is due at the same tick and follows it (R5): its stamp,
the flight and the quiet indicator, and its report to the rail, which is a collision in MOVING, homing and calibration (R60,
R66, R76) and nothing elsewhere. That a stamp replaced while HIGH begins with its reached-high mark clear is the model's reading
(notes/assumptions/16.md). -/
def Obligations.LowerGateRiseReachesTheRail : Prop :=
  (∀ (s : State) (key : Key), s.inReset = false → s.scanner.ok →
    let k := s.scanner.keys[key]
    k.g2 = ⟨false, 3⟩ → (k.g1.count < 3 ∨ k.g1 = ⟨false, 3⟩) → exec (.gateCrossing key .g2) s
      = .next (State.g2Report { s with scanner := { s.scanner with
          keys := s.scanner.keys.set key { k with
            g2 := ⟨true, 0⟩, zone := if k.g1.above then .high else .mid
            g2Stamp := some ⟨s.actionClock - 2, false, false⟩ }
          flightCount := s.scanner.flightCount + (if k.g1.above then 0 else 1)
          quiet := k.g1.above && s.scanner.quiet } }))
  ∧ ∀ s : State,
    (∀ o, s.rail.state = .moving → s.rail.origin = some o → s.g2Report = { s with rail := { s.rail with
        state := .returning .retry, attempts := s.rail.attempts + 1, drive := some ⟨o, s.rail.moveDuty⟩
        moveTimer := some s.rail.travelLimit } })
    ∧ (s.rail.state = .homing .driving →
      s.g2Report = { s with rail := { s.rail with state := .homing .waiting, drive := none, moveTimer := none } })
    ∧ ((s.rail.state = .calibrating .closing ∨ s.rail.state = .calibrating .opening) → s.link.slot = .running .railCalibrate →
      s.g2Report = { s with
        rail := { s.rail with
          state := .returning .calibration, origin := some .opened, drive := some ⟨.opened, s.rail.moveDuty⟩
          moveTimer := some s.rail.travelLimit }
        link := { s.link with
          slot := .finished .railCalibrate .interrupted .nothing
          pendingSet := s.link.pendingSet ||| Notice.opDone.bit } })
    ∧ (s.rail.state ≠ .moving → s.rail.state ≠ .homing .driving → s.rail.state ≠ .calibrating .closing →
      s.rail.state ≠ .calibrating .opening → s.g2Report = s)

/-- Downward crossings (R6, R13, R17, R18): a return to LOW is a landing, which restarts the settle timer and may be a missed
excursion; a G2 fall under a raised G1 is a gate fault; a G1 fall over a raised G2 leaves the key in MID. Of two crossings due
together R5 says which is first, a fall before a rise, G1's fall before G2's and G2's rise before G1's, and the other is not yet
taken: that its command then has no effect is the model's choice (notes/assumptions/4.md). -/
def Obligations.LandingsRestartTheSettleTimer : Prop :=
  ∀ (s : State) (key : Key), s.inReset = false → s.scanner.ok →
    let k := s.scanner.keys[key]
    let active := s.scanner.ready && s.touch.inEffect[key].enabled
    let missed := if active = true ∧ (k.phase = .travel ∨ k.phase = .rearmed) ∧ ∃ g, k.g2Stamp = some g ∧ g.reachedHigh = false
      then min 65535 (k.missed + 1) else k.missed
    let with' := fun r => { s.scanner with keys := s.scanner.keys.set key r }
    let landed := fun r => { with' r with
      flightCount := s.scanner.flightCount - 1, quiet := false, lastLanding := some (s.actionClock - 2)
      settle := some 20000 }
    k.missed ≤ 65535 → k.gateFault ≤ 65535 →
    (k.g2 = ⟨true, 3⟩ → k.g1.above = false → exec (.gateCrossing key .g2) s
      = .next { s with scanner := landed { k with g2 := ⟨false, 0⟩, zone := .low, g2Stamp := none, missed := missed } })
    ∧ (k.g1 = ⟨true, 3⟩ → k.g2.above = false → exec (.gateCrossing key .g1) s
      = .next { s with scanner := landed { k with g1 := ⟨false, 0⟩, zone := .low, g2Stamp := none, missed := missed } })
    ∧ (k.g1 = ⟨true, 3⟩ → k.g2.above = true → exec (.gateCrossing key .g1) s
      = .next { s with scanner := with' { k with g1 := ⟨false, 0⟩, zone := .mid } })
    ∧ (k.g2 = ⟨true, 3⟩ → k.g1.above = true → k.g1.count < 3 → exec (.gateCrossing key .g2) s
      = .next { s with scanner := with' { k with
          g2 := ⟨false, 0⟩, zone := .high, gateFault := if active then min 65535 (k.gateFault + 1) else k.gateFault } })
    ∧ (k.g1 = ⟨false, 3⟩ → k.g2.count = 3 → exec (.gateCrossing key .g1) s = .next s)
    ∧ (k.g1 = ⟨true, 3⟩ → k.g2.count = 3 → exec (.gateCrossing key .g2) s = .next s)

/-- The keys' part of a scan with nothing left due (R2, R3, R8, R9, R15, R20, R21, R23, R28): every entry of the table is
taken into effect, every travel and history moves on, the phases are checked, and the RELEASEs go out; that those of different
keys go in ascending key order is the model's choice (notes/assumptions/29.md). A rest learning under way collects the raw
sample of each of its 90 sensors into its sum, its least and its greatest value (R21). -/
def Obligations.ScansWorkEveryKey : Prop :=
  ∀ (s : State) (samples : ScanSamples), s.inReset = false → s.scanClear →
    let travel := fun k : Key => min 1023 (samples.keys[k].toNat - s.touch.table[k].rest)
    let held := fun k : Key => s.scanner.keys[k].phase = .struck || s.scanner.keys[k].phase = .rearmed
    let on := fun k : Key => s.touch.table[k].enabled
    let level := fun k : Key => min 127 ((s.scanner.keys[k].history[1] - travel k) / 4)
    let below := fun k : Key => decide (travel k < s.touch.table[k].releasePoint)
    let ends := fun k : Key => s.scanner.ready && held k && (!on k || below k)
    let rearms := fun k : Key => s.scanner.ready && s.scanner.keys[k].phase = .struck && on k && !below k
      && decide (travel k < s.touch.table[k].rearmPoint)
    let release := fun k : Key => NoteRequest.release k (if on k then BitVec.ofNat 8 (level k) else 0)
    let raw := fun i : Fin 90 => if h : i.val < 88 then samples.keys[i.val].toNat
      else if i.val = 88 then samples.damper.toNat else samples.unaCorda.toNat
    ∃ t keys learning, exec (.scan samples) s = .next t
      ∧ t.scanner = { s.scanner with keys := keys, learning := learning }
      ∧ t.touch = { s.touch with inEffect := s.touch.table }
      ∧ t.voice = { s.voice with liveRequests := s.voice.liveRequests ++ (allKeys.filter ends).map release }
      ∧ (t.actionClock = s.actionClock ∧ t.perfClock = s.perfClock ∧ t.wave = s.wave ∧ t.audio = s.audio
        ∧ t.player = s.player ∧ t.pending = s.pending)
      ∧ (s.scanner.learning = none → learning = none)
      ∧ (∀ l, s.scanner.learning = some l → ∃ sensors, learning = some ⟨l.scans + 1, sensors⟩
        ∧ ∀ i : Fin 90, sensors[i]
          = ⟨l.sensors[i].sum + raw i, min l.sensors[i].least (raw i), max l.sensors[i].greatest (raw i)⟩)
      ∧ ∀ k : Key, keys[k] = { s.scanner.keys[k] with
          travel := travel k
          history := #v[s.scanner.keys[k].history[1], s.scanner.keys[k].history[2], s.scanner.keys[k].history[3],
            s.scanner.keys[k].history[4], travel k]
          lastRelease := if ends k then (if on k then level k else 0) else if rearms k then level k
            else s.scanner.keys[k].lastRelease
          phase := if !s.scanner.ready then s.scanner.keys[k].phase
            else if ends k then .idle
            else if rearms k then .rearmed
            else if s.scanner.keys[k].phase = .travel && (!on k || below k) then .idle
            else if s.scanner.keys[k].phase = .idle && on k && decide (s.touch.table[k].touchPoint ≤ travel k) then .travel
            else s.scanner.keys[k].phase }

/-- The pedals' and the switches' part of a scan with nothing left due (R43, R46, R47, R49, R50, R52, R57), and what the scan
offers to the recorder: while READY the PEDAL records of the values that moved, damper before sostenuto before una corda
(R52), beside the RELEASEs of the keys (R16), in the order the scan takes the two (R51). While NOT_READY the live values, the
latch set and the references stay, and nothing is offered (R43). When the third agreeing sostenuto sample makes its
confirmation due, the live sostenuto stays as it is and the una corda's comparison waits for the confirmation; that the
confirmation is an event of its own, and what the order of such a scan is, are the model's reading (notes/assumptions/5.md and
9.md). -/
def Obligations.ScansWorkThePedals : Prop :=
  ∀ (s : State) (samples : ScanSamples), s.inReset = false → s.scanClear → ∃ t released, exec (.scan samples) s = .next t ∧
    let p := t.pedals
    let raw := samples.sostenuto.toNat
    let lift := p.live.lift
    let on := p.live.sostenuto
    let value := p.live.unaCorda
    let due := decide (p.filter.count = 3)
    let liftMoves := decide (s.pedals.refLift + 8 ≤ lift ∨ lift + 8 ≤ s.pedals.refLift
      ∨ (lift = 0 ∨ lift = 255) ∧ lift ≠ s.pedals.refLift)
    let valueMoves := !due && decide (s.pedals.refUnaCorda + 8 ≤ value ∨ value + 8 ≤ s.pedals.refUnaCorda
      ∨ value = 0 ∧ s.pedals.refUnaCorda ≠ 0)
    let offers := (if liftMoves then [RecorderEvent.pedal .damper (BitVec.ofNat 8 lift)] else [])
      ++ (if on != s.pedals.refSostenuto then [RecorderEvent.pedal .sostenuto (if on then 1 else 0)] else [])
      ++ (if valueMoves then [RecorderEvent.pedal .unaCorda (BitVec.ofNat 8 value)] else [])
    let releases := released.map fun e : Key × Byte => RecorderEvent.release e.1 e.2
    let merged := on || s.pedals.playback.sostenuto
    let keys := if samples.pedalsFirst then s.scanner.keys else t.scanner.keys
    t.voice.liveRequests = s.voice.liveRequests ++ released.map (fun e : Key × Byte => NoteRequest.release e.1 e.2)
    ∧ (p.damperTravel = min 1023 (samples.damper.toNat - s.pedals.damperRest)
      ∧ p.unaCordaTravel = min 1023 (samples.unaCorda.toNat - s.pedals.unaCordaRest)
      ∧ p.sostenutoRaw = raw ∧ p.mapInEffect = s.pedals.map ∧ p.playback = s.pedals.playback
      ∧ p.filter = ⟨s.pedals.filter.on, if (if s.pedals.filter.on then raw ≤ 460 else 560 ≤ raw)
          then s.pedals.filter.count + 1 else 0⟩)
    ∧ (s.scanner.ready = false → p.live = s.pedals.live ∧ p.following = s.pedals.following ∧ p.latch = s.pedals.latch
      ∧ p.mergedLift = s.pedals.mergedLift ∧ p.mergedSostenuto = s.pedals.mergedSostenuto ∧ p.refLift = s.pedals.refLift
      ∧ p.refSostenuto = s.pedals.refSostenuto ∧ p.refUnaCorda = s.pedals.refUnaCorda
      ∧ t.recorder = s.recorder ∧ t.link = s.link ∧ released = [])
    ∧ (s.scanner.ready = true → p.following = true
      ∧ on = (if due then s.pedals.live.sostenuto else s.pedals.filter.on)
      ∧ value = p.unaCordaTravel / 4 ∧ p.live.u = p.unaCordaTravel * 51 / 1023
      ∧ p.mergedLift = max lift s.pedals.playback.lift ∧ p.mergedSostenuto = merged
      ∧ p.latch = (if merged then (if s.pedals.mergedSostenuto then s.pedals.latch else
          allKeys.filter fun k => decide (keys[k].phase ≠ .idle ∨ k ∈ s.player.held)) else [])
      ∧ p.refLift = (if liftMoves then lift else s.pedals.refLift) ∧ p.refSostenuto = on
      ∧ p.refUnaCorda = (if valueMoves then value else s.pedals.refUnaCorda)
      ∧ ∃ u : State, u = ((if samples.pedalsFirst then offers ++ releases else releases ++ offers).foldl
          (fun u e => u.offer .live e) s) ∧ t.recorder = u.recorder ∧ t.link = u.link)
    ∧ t.rail = { s.rail with
        switchOpen := ⟨s.rail.switchOpen.on,
          if samples.endOpen = s.rail.switchOpen.on then 0 else s.rail.switchOpen.count + 1⟩
        switchClosed := ⟨s.rail.switchClosed.on,
          if samples.endClosed = s.rail.switchClosed.on then 0 else s.rail.switchClosed.count + 1⟩ }

/-- The damper lift (R44): 0 up to the contact, 255 from the full point, between them the floor given, never falling as the
travel rises; a scan computes the live lift so while the Scanner is READY. -/
def Obligations.DamperLiftFollowsTheMap : Prop :=
  (∀ (map : PedalMap) (travel : Nat), map.contact < map.full →
    (travel ≤ map.contact → liftOf map travel = 0)
    ∧ (map.full ≤ travel → liftOf map travel = 255)
    ∧ (map.contact < travel → travel < map.full →
      liftOf map travel = (travel - map.contact) * 255 / (map.full - map.contact) ∧ liftOf map travel ≤ 254)
    ∧ ∀ further, travel ≤ further → liftOf map travel ≤ liftOf map further)
  ∧ ∀ (s : State) (samples : ScanSamples), s.inReset = false → s.scanClear → s.scanner.ready = true →
    ∃ t, exec (.scan samples) s = .next t
      ∧ t.pedals.live.lift = liftOf s.pedals.map (min 1023 (samples.damper.toNat - s.pedals.damperRest))

/-- Rest learning completes at its 256th scan (R21, R20, R187, R188). That LEARN_REST_COMPLETE with fewer than 256 scans
collected has no effect is the model's choice (notes/assumptions/4.md). -/
def Obligations.RestLearningCompletes : Prop :=
  ∀ (s : State) (l : RestLearning), s.inReset = false → s.scanner.learning = some l →
    let rest := fun (i : Fin 90) (held : Nat) =>
      if l.sensors[i].greatest - l.sensors[i].least ≤ 40 then l.sensors[i].sum / 256 else held
    let unsettled := ((List.finRange 90).filter fun i =>
      decide (40 < l.sensors[i].greatest - l.sensors[i].least)).map fun i => i.val
    (l.scans ≠ 256 → exec .learnRestComplete s = .next s)
    ∧ ∀ op details, l.scans = 256 → s.link.slot = .running op →
      (op = .startup ∧ details = .startup s.wave.summary ⟨unsettled.length, unsettled.take 8⟩
        ∨ op = .learnRest ∧ details = .rest ⟨unsettled.length, unsettled.take 8⟩) →
      ∃ table, exec .learnRestComplete s = .next { s with
          scanner := { s.scanner with ready := true, learning := none }
          touch := { s.touch with table := table }
          pedals := { s.pedals with
            damperRest := rest 88 s.pedals.damperRest, unaCordaRest := rest 89 s.pedals.unaCordaRest }
          link := { s.link with
            slot := .finished op .complete details, pendingSet := s.link.pendingSet ||| Notice.opDone.bit } }
        ∧ ∀ k : Key, table[k] = { s.touch.table[k] with rest := rest ⟨k.val, by omega⟩ s.touch.table[k].rest }

/-- The sostenuto's confirmation (R46, R49, R50, R52): the filtered state turns; from the first scan taken while READY on, the
live and merged sostenuto and the latch set follow it, and before that scan nothing else does (R43). After its scan (count 3)
the turn is offered, and after it the una corda value that this scan left to it. That a confirmation is an event of its own,
that one which is not due has no effect, and that it may be sent before its scan (count 2), which then makes the offer, are
the model's (notes/assumptions/4.md, 5.md and 9.md). -/
def Obligations.SostenutoTurnsAtItsConfirmation : Prop :=
  ∀ (s : State) (sample : Sample), s.inReset = false →
    let on := !s.pedals.filter.on
    let merged := on || s.pedals.playback.sostenuto
    let value := s.pedals.live.unaCorda
    let valueMoves := decide (s.pedals.refUnaCorda + 8 ≤ value ∨ value + 8 ≤ s.pedals.refUnaCorda
      ∨ value = 0 ∧ s.pedals.refUnaCorda ≠ 0)
    let confirmed := { s.pedals with filter := ⟨on, 0⟩ }
    let turned := { confirmed with
      live := { s.pedals.live with sostenuto := on }
      mergedLift := max s.pedals.live.lift s.pedals.playback.lift, mergedSostenuto := merged
      latch := if merged then (if s.pedals.mergedSostenuto then s.pedals.latch else
        allKeys.filter fun k => decide (s.scanner.keys[k].phase ≠ .idle ∨ k ∈ s.player.held)) else [] }
    let offers := (if on != s.pedals.refSostenuto then [RecorderEvent.pedal .sostenuto (if on then 1 else 0)] else [])
      ++ (if valueMoves then [RecorderEvent.pedal .unaCorda (BitVec.ofNat 8 value)] else [])
    let follows := s.scanner.ready = true ∧ s.pedals.following = true
    let answers := fun t => exec (.sostenutoConfirmed sample) s = .next t
    (s.pedals.filter.count < 2 → answers s)
    ∧ (s.pedals.filter.count = 3 →
      (¬ follows → answers { s with pedals := confirmed })
      ∧ (follows → answers (offers.foldl (fun u e => u.offer .live e) { s with pedals := { turned with
          refSostenuto := on, refUnaCorda := if valueMoves then value else s.pedals.refUnaCorda } })))
    ∧ (s.pedals.filter.count = 2 →
      (if s.pedals.filter.on then 460 < sample.toNat else sample.toNat < 560) → answers s)
    ∧ (s.pedals.filter.count = 2 →
      (if s.pedals.filter.on then sample.toNat ≤ 460 else 560 ≤ sample.toNat) →
      (¬ follows → answers { s with pedals := confirmed }) ∧ (follows → answers { s with pedals := turned }))

/-- GET KEY COUNTERS (R25): the run is checked; accepted, it returns the five counters of each key in key order and sets them
to 0, and leaves the counters of every other key. -/
def Obligations.KeyCountersAreReadAndCleared : Prop :=
  ∀ (s : State) (first count : Byte), s.taking →
    let inside := fun k : Key => first.toNat ≤ k.val ∧ k.val < first.toNat + count.toNat
    if first.toNat ≤ 87 ∧ 1 ≤ count.toNat ∧ count.toNat ≤ 24 ∧ first.toNat + count.toNat ≤ 88 then
      ∃ keys : Vector KeyRecord 88, exec (.getKeyCounters first count) s
        = .next (State.replying 0x11#8 .ok ((allKeys.filter fun k => inside k).flatMap fun k =>
            let r := s.scanner.keys[k]
            [r.strikes, r.missed, r.orphan, r.rebound, r.gateFault].flatMap u16)
          { s with scanner := { s.scanner with keys := keys } })
        ∧ ∀ k : Key, keys[k] = if inside k then
            { s.scanner.keys[k] with strikes := 0, missed := 0, orphan := 0, rebound := 0, gateFault := 0 }
          else s.scanner.keys[k]
    else exec (.getKeyCounters first count) s = .next (s.replying 0x11#8 .badValue [])

/-- SET REGULATION, with the ranges of R26 (R27), and SET TOUCH CURVE (R34): checked in full, then written whole or not at
all. -/
def Obligations.RegulationAndCurveAreCheckedInFull : Prop :=
  ∀ s : State, s.taking →
    (∀ (first count : Byte) (entries : List RegFields), entries.length = count.toNat →
      let good := fun f : RegFields => f.rest.toNat ≤ 1023 ∧ f.touchPoint.toNat ≤ 1023 ∧ f.rearmPoint.toNat ≤ 1023
        ∧ 1 ≤ f.releasePoint.toNat ∧ 128 ≤ f.gapScale.toNat ∧ f.gapScale.toNat ≤ 511 ∧ -16 ≤ f.trim.toInt
        ∧ f.trim.toInt ≤ 15 ∧ f.enabled.toNat ≤ 1 ∧ f.releasePoint.toNat < f.touchPoint.toNat
        ∧ f.touchPoint.toNat < f.rearmPoint.toNat
      if first.toNat ≤ 87 ∧ 1 ≤ count.toNat ∧ count.toNat ≤ 16 ∧ first.toNat + count.toNat ≤ 88 ∧ ∀ f ∈ entries, good f then
        ∃ table, exec (.setRegulation first count entries) s
            = .next (State.replying 0x12#8 .ok [] { s with touch := { s.touch with table := table } })
          ∧ ∀ k : Key, table[k] = if first.toNat ≤ k.val then
              match entries[k.val - first.toNat]? with
              | some f => ⟨f.rest.toNat, f.touchPoint.toNat, f.rearmPoint.toNat, f.releasePoint.toNat, f.gapScale.toNat,
                  f.trim.toInt, f.enabled = 1⟩
              | none => s.touch.table[k]
            else s.touch.table[k]
      else exec (.setRegulation first count entries) s = .next (s.replying 0x12#8 .badValue []))
    ∧ ∀ points : Vector CurvePoint 9,
      if points[0].speed = 0 ∧ points[8].speed.toNat = 1023
          ∧ (∀ i : Fin 8, points[i.val].speed.toNat < points[i.val + 1].speed.toNat
            ∧ points[i.val].level.toNat ≤ points[i.val + 1].level.toNat)
          ∧ ∀ i : Fin 9, 1 ≤ points[i].level.toNat ∧ points[i].level.toNat ≤ 127 then
        ∃ curve, exec (.setTouchCurve points) s
            = .next (State.replying 0x14#8 .ok [] { s with touch := { s.touch with curve := curve } })
          ∧ ∀ i : Fin 9, curve[i] = ⟨points[i].speed.toNat, points[i].level.toNat⟩
      else exec (.setTouchCurve points) s = .next (s.replying 0x14#8 .badValue [])

/-- The touch level (R30 to R32, R37 to R39): on a curve that SET TOUCH CURVE accepts it is the interpolation of a segment
that holds the speed, with the trim, in 1 to 127; a shorter interval never gives a lower level, and an interval of 0 counts as
1 (R10). -/
def Obligations.TouchLevelsFollowTheCurve : Prop :=
  ∀ (points : Vector CurvePoint 9) (curve : Vector TouchPoint 9) (entry : RegEntry), curveOf points = some curve →
    (∀ interval, 1 ≤ interval →
      let v := min 1023 (300000 * entry.gapScale / (256 * interval))
      ∃ i : Fin 8, curve[i.val].speed ≤ v ∧ v ≤ curve[i.val + 1].speed
        ∧ (touchLevel entry curve interval : Int) = max 1 (min 127
          ((curve[i.val].level + (v - curve[i.val].speed) * (curve[i.val + 1].level - curve[i.val].level)
            / (curve[i.val + 1].speed - curve[i.val].speed) : Nat) + entry.trim)))
    ∧ touchLevel entry curve 0 = touchLevel entry curve 1
    ∧ ∀ faster slower, faster ≤ slower → touchLevel entry curve slower ≤ touchLevel entry curve faster

/-- SET PEDAL MAP, SET RAIL DRIVE, SET SOUND OPTIONS, SET OUTPUT GAIN and SET ROUTE (R45, R79, R85, R131, R133, R195): the
value is checked, and written as a setting of its block alone. -/
def Obligations.SettingsAreCheckedAndWritten : Prop :=
  ∀ s : State, s.taking →
    (∀ contact full : Half, exec (.setPedalMap contact full) s
      = .next (if contact.toNat ≤ 1023 ∧ full.toNat ≤ 1023 ∧ contact.toNat < full.toNat then
          State.replying 0x21#8 .ok [] { s with pedals := { s.pedals with map := ⟨contact.toNat, full.toNat⟩ } }
        else s.replying 0x21#8 .badValue []))
    ∧ (∀ duty : Byte, exec (.setRailDrive duty) s
      = .next (if 30 ≤ duty.toNat ∧ duty.toNat ≤ 100 then
          State.replying 0x2A#8 .ok [] { s with rail := { s.rail with travelDuty := duty.toNat } }
        else s.replying 0x2A#8 .badValue []))
    ∧ (∀ option : Byte, exec (.setSoundOptions option) s
      = .next (if option.toNat ≤ 1 then
          State.replying 0x30#8 .ok [] { s with voice := { s.voice with acousticLayer := option = 1 } }
        else s.replying 0x30#8 .badValue []))
    ∧ (∀ live playback : Byte,
      let set := fun g : ChannelGains =>
        { g with live := { g.live with target := live.toNat }, playback := { g.playback with target := playback.toNat } }
      exec (.setOutputGain 1 live playback) s
          = .next (State.replying 0x38#8 .ok [] { s with audio := { s.audio with hp1 := set s.audio.hp1 } })
        ∧ exec (.setOutputGain 2 live playback) s
          = .next (State.replying 0x38#8 .ok [] { s with audio := { s.audio with hp2 := set s.audio.hp2 } })
        ∧ exec (.setOutputGain 3 live playback) s
          = .next (State.replying 0x38#8 .ok [] { s with audio := { s.audio with line := set s.audio.line } })
        ∧ ∀ channel : Byte, channel = 0 ∨ 4 ≤ channel.toNat →
          exec (.setOutputGain channel live playback) s = .next (s.replying 0x38#8 .badValue []))
    ∧ (∀ slot channel side : Byte,
      (8 ≤ slot.toNat ∨ 4 ≤ channel.toNat ∨ (channel ≠ 0 ∧ 2 ≤ side.toNat) →
        exec (.setRoute slot channel side) s = .next (s.replying 0x39#8 .badValue []))
      ∧ ∀ (h : slot.toNat < 8) (route : Route),
        (channel = 0 ∧ route = .off
          ∨ ∃ c d, route = .out c d ∧ channel.toNat = c.code ∧ 1 ≤ channel.toNat ∧ side.toNat = d.code) →
        exec (.setRoute slot channel side) s
          = .next (State.replying 0x39#8 .ok [] { s with audio := { s.audio with
              routes := s.audio.routes.set slot.toNat route h } }))

/-- SET RAIL MODE (R61, R63), where code 0 names the CLOSED end and code 1 the OPEN end (11.3), and CLEAR RAIL FAULT (R72,
R59, R60), accepted in FAULT with the guard released, where the rail enters HOMING by its switches and the quiet indicator.
That a move cancelled in WAIT_QUIET keeps its target and its origin is the model's reading (notes/assumptions/24.md). -/
def Obligations.RailRequestsFollowTheState : Prop :=
  (∀ s : State, s.taking →
    let mode := fun e : RailEnd => Instr.setRailMode (match e with | .closed => 0 | .opened => 1)
    let resting := fun e : RailEnd => match e with | .closed => RailState.closed | .opened => RailState.opened
    let moved := fun rail => Host.Outcome.next (State.replying 0x28#8 .ok [] { s with rail := rail })
    (∀ code : Byte, 2 ≤ code.toNat → exec (.setRailMode code) s = .next (s.replying 0x28#8 .badValue []))
    ∧ (∀ e, s.rail.state = resting e → exec (mode e) s = moved s.rail)
    ∧ (∀ origin target, origin ≠ target → s.rail.state = resting origin →
      (s.scanner.quiet = false → exec (mode target) s = moved { s.rail with
        state := .waitQuiet, drive := none, moveTimer := none, target := target, origin := some origin, attempts := 0 })
      ∧ (s.scanner.quiet = true → exec (mode target) s = moved { s.rail with
        state := .moving, moveDuty := s.rail.travelDuty, drive := some ⟨target, s.rail.travelDuty⟩
        moveTimer := some s.rail.travelLimit, target := target, origin := some origin, attempts := 0 }))
    ∧ (∀ e, s.rail.state = .waitQuiet → e = s.rail.target → exec (mode e) s = moved s.rail)
    ∧ (∀ e, s.rail.state = .waitQuiet → e ≠ s.rail.target →
      exec (mode e) s = moved { s.rail with state := resting e, drive := none, moveTimer := none })
    ∧ (∀ e, (s.rail.state = .moving ∨ (∃ kind, s.rail.state = .returning kind) ∨ (∃ phase, s.rail.state = .homing phase)
        ∨ ∃ phase, s.rail.state = .calibrating phase) → exec (mode e) s = .next (s.replying 0x28#8 .busy []))
    ∧ ∀ e reason, s.rail.state = .fault reason → exec (mode e) s = .next (s.replying 0x28#8 .wrongState []))
  ∧ (∀ s : State, s.taking →
    ((∀ reason, s.rail.state ≠ .fault reason) ∨ s.rail.guardLow = true →
      exec .clearRailFault s = .next (s.replying 0x29#8 .wrongState []))
    ∧ ∀ reason, s.rail.state = .fault reason → s.rail.guardLow = false →
      let homed := fun state drive timer (notice : BitVec 11) => exec .clearRailFault s
        = .next (State.replying 0x29#8 .ok [] { s with
          rail := { s.rail with
            state := state, drive := drive, moveTimer := timer, attempts := 0, target := .opened, origin := none }
          link := { s.link with pendingSet := s.link.pendingSet ||| notice } })
      (s.rail.switchOpen.on = true → s.rail.switchClosed.on = true →
        homed (.fault .switchConflict) none none Notice.railFault.bit)
      ∧ (s.rail.switchOpen.on = true → s.rail.switchClosed.on = false → homed .opened none none Notice.railDone.bit)
      ∧ (s.rail.switchOpen.on = false → s.scanner.quiet = false → homed (.homing .waiting) none none 0)
      ∧ (s.rail.switchOpen.on = false → s.scanner.quiet = true →
        homed (.homing .driving) (some ⟨.opened, 50⟩) (some 3000) 0))

/-- END SWITCH CONFIRMED (R57): an arrival by the rail's state (R60, R65, R67, R71, R74), which on a quiet action gives a
retry its grant at once (R63), both switches ACTIVE (R69), and a departure, which is drift where the rail is meant to rest
(R70). That a change which is not due is not confirmed is the model's choice (notes/assumptions/4.md). -/
def Obligations.SwitchChangesMoveTheRail : Prop :=
  ∀ (s : State) (e : RailEnd), s.inReset = false →
    let own := match e with | .opened => s.rail.switchOpen | .closed => s.rail.switchClosed
    let other := match e with | .opened => s.rail.switchClosed | .closed => s.rail.switchOpen
    let resting := match e with | .closed => RailState.closed | .opened => RailState.opened
    let turned := fun on => match e with
      | .opened => { s.rail with switchOpen := ⟨on, 0⟩ }
      | .closed => { s.rail with switchClosed := ⟨on, 0⟩ }
    let rest := fun on (st : RailState) (notice : BitVec 11) => exec (.endSwitchConfirmed e) s = .next { s with
      rail := { turned on with state := st, drive := none, moveTimer := none }
      link := { s.link with pendingSet := s.link.pendingSet ||| notice } }
    let kept := fun on => exec (.endSwitchConfirmed e) s = .next { s with rail := turned on }
    (own.count ≠ 3 → exec (.endSwitchConfirmed e) s = .next s)
    ∧ (own = ⟨false, 3⟩ → other.on = false →
      ((s.rail.state = .moving ∧ e = s.rail.target ∨ (∃ phase, s.rail.state = .homing phase) ∧ e = .opened) →
        rest true resting Notice.railDone.bit)
      ∧ (s.rail.state = .returning .retry → some e = s.rail.origin → s.rail.attempts < 3 → s.scanner.quiet = false →
        rest true .waitQuiet 0)
      ∧ (s.rail.state = .returning .retry → some e = s.rail.origin → s.rail.attempts < 3 → s.scanner.quiet = true →
        exec (.endSwitchConfirmed e) s = .next { s with rail := { turned true with
          state := .moving, moveDuty := s.rail.travelDuty, drive := some ⟨s.rail.target, s.rail.travelDuty⟩
          moveTimer := some s.rail.travelLimit } })
      ∧ (s.rail.state = .returning .retry → some e = s.rail.origin → 3 ≤ s.rail.attempts →
        rest true resting Notice.railGiveup.bit)
      ∧ (s.rail.state = .returning .calibration → e = .opened → rest true .opened 0)
      ∧ ((s.rail.state = .opened ∨ s.rail.state = .closed ∨ s.rail.state = .waitQuiet
          ∨ s.rail.state = .moving ∧ e ≠ s.rail.target ∨ s.rail.state = .returning .retry ∧ some e ≠ s.rail.origin
          ∨ (∃ phase, s.rail.state = .homing phase) ∧ e = .closed ∨ s.rail.state = .returning .calibration ∧ e = .closed
          ∨ s.rail.state = .calibrating .closing ∧ e = .opened ∨ s.rail.state = .calibrating .opening ∧ e = .closed
          ∨ s.rail.state = .calibrating .waitClose ∨ s.rail.state = .calibrating .waitOpen) →
        kept true))
    ∧ (own = ⟨false, 3⟩ → other.on = true → (∀ reason, s.rail.state ≠ .fault reason) →
      (∀ phase, s.rail.state ≠ .calibrating phase) → rest true (.fault .switchConflict) Notice.railFault.bit)
    ∧ (own.count = 3 → ∀ reason, s.rail.state = .fault reason → kept (!own.on))
    ∧ (own = ⟨true, 3⟩ →
      ((s.rail.state = resting ∨ s.rail.state = .waitQuiet ∧ s.rail.origin = some e) →
        rest false (.fault .drift) Notice.railFault.bit)
      ∧ ((s.rail.state = .moving ∨ (∃ kind, s.rail.state = .returning kind) ∨ (∃ phase, s.rail.state = .homing phase)
          ∨ s.rail.state = .calibrating .closing ∨ s.rail.state = .calibrating .opening) → kept false))

/-- The legs of a calibration (R74, R75) and its end by a fault (R77): the guard, the move timer, either switch as the second
ACTIVE one (R69), and drift. That a quiet action starts OPENING at the arrival that ends CLOSING is the model's reading
(notes/assumptions/15.md). -/
def Obligations.CalibrationMeasuresItsLegs : Prop :=
  ∀ s : State, s.inReset = false → s.link.slot = .running .railCalibrate →
    let ended := fun outcome details (notices : BitVec 11) => { s.link with
      slot := .finished .railCalibrate outcome details, pendingSet := s.link.pendingSet ||| notices }
    let failed := fun (c : Instr) (rail : Rail) (reason : FaultReason) => exec c s = .next { s with
      rail := { rail with state := .fault reason, drive := none, moveTimer := none }
      link := ended .failed (.railFault reason) (Notice.railFault.bit ||| Notice.opDone.bit) }
    (s.rail.state = .calibrating .closing → s.rail.switchClosed = ⟨false, 3⟩ → s.rail.switchOpen.on = false →
      s.scanner.quiet = false → exec (.endSwitchConfirmed .closed) s = .next { s with rail := { s.rail with
        switchClosed := ⟨true, 0⟩, state := .calibrating .waitOpen, drive := none, moveTimer := none
        legClosing := (s.perfClock - s.rail.legStart).toNat } })
    ∧ (s.rail.state = .calibrating .closing → s.rail.switchClosed = ⟨false, 3⟩ → s.rail.switchOpen.on = false →
      s.scanner.quiet = true → exec (.endSwitchConfirmed .closed) s = .next { s with rail := { s.rail with
        switchClosed := ⟨true, 0⟩, state := .calibrating .opening, drive := some ⟨.opened, s.rail.moveDuty⟩
        moveTimer := some s.rail.travelLimit, legStart := s.perfClock
        legClosing := (s.perfClock - s.rail.legStart).toNat } })
    ∧ (s.rail.state = .calibrating .opening → s.rail.switchOpen = ⟨false, 3⟩ → s.rail.switchClosed.on = false →
      let opening := (s.perfClock - s.rail.legStart).toNat
      let limit := max 200 (min 3000 (3 * max s.rail.legClosing opening / 2))
      exec (.endSwitchConfirmed .opened) s = .next { s with
        rail := { s.rail with
          switchOpen := ⟨true, 0⟩, state := .opened, drive := none, moveTimer := none
          closingTime := some s.rail.legClosing, openingTime := some opening, travelLimit := limit }
        link := ended .complete (.calibration s.rail.legClosing opening limit) Notice.opDone.bit })
    ∧ (∀ phase, s.rail.state = .calibrating phase →
      failed .railGuardAsserted { s.rail with guardLow := true } .guard
      ∧ (s.rail.moveTimer = some 0 → failed .moveTimerExpiry s.rail .travelTimeout)
      ∧ (s.rail.switchClosed = ⟨false, 3⟩ → s.rail.switchOpen.on = true →
        failed (.endSwitchConfirmed .closed) { s.rail with switchClosed := ⟨true, 0⟩ } .switchConflict)
      ∧ (s.rail.switchOpen = ⟨false, 3⟩ → s.rail.switchClosed.on = true →
        failed (.endSwitchConfirmed .opened) { s.rail with switchOpen := ⟨true, 0⟩ } .switchConflict))
    ∧ (s.rail.state = .calibrating .waitClose → s.rail.switchOpen = ⟨true, 3⟩ →
      failed (.endSwitchConfirmed .opened) { s.rail with switchOpen := ⟨false, 0⟩ } .drift)
    ∧ (s.rail.state = .calibrating .waitOpen → s.rail.switchClosed = ⟨true, 3⟩ →
      failed (.endSwitchConfirmed .closed) { s.rail with switchClosed := ⟨false, 0⟩ } .drift)

/-- The guard (R58) and the move timer (R68): entry to FAULT, once (R71). That an expiry which is not due has no effect is the
model's choice (notes/assumptions/4.md). -/
def Obligations.GuardAndTimerStopTheRail : Prop :=
  ∀ s : State,
    let faults := fun (c : Instr) (rail : Rail) (reason : FaultReason) => exec c s = .next { s with
      rail := { rail with state := .fault reason, drive := none, moveTimer := none }
      link := { s.link with pendingSet := s.link.pendingSet ||| Notice.railFault.bit } }
    (exec .railGuardReleased s = .next { s with rail := { s.rail with guardLow := false } })
    ∧ (s.inReset = true ∨ (∃ reason, s.rail.state = .fault reason) →
      exec .railGuardAsserted s = .next { s with rail := { s.rail with guardLow := true } })
    ∧ (s.inReset = false → (∀ reason, s.rail.state ≠ .fault reason) → (∀ phase, s.rail.state ≠ .calibrating phase) →
      faults .railGuardAsserted { s.rail with guardLow := true } .guard
      ∧ (s.rail.moveTimer = some 0 → faults .moveTimerExpiry s.rail .travelTimeout))
    ∧ (s.inReset = false → s.rail.moveTimer ≠ some 0 → exec .moveTimerExpiry s = .next s)

/-- A STRIKE request that ends early (R84, R87, R89, R83): at the closed live gate, while the table loads, or for want of a
zone, with the voice table as it was. That a request waits for its command, and that a command which names no oldest request
has no effect, are the model's (notes/assumptions/4.md and 8.md). -/
def Obligations.StrikesCanEndEarly : Prop :=
  ∀ (s : State) (source : Source) (key : Key) (level : Byte), s.inReset = false →
    let requests := match source with | .live => s.voice.liveRequests | .playback => s.voice.playbackRequests
    let taken := match source with
      | .live => { s.voice with liveRequests := s.voice.liveRequests.tail }
      | .playback => { s.voice with playbackRequests := s.voice.playbackRequests.tail }
    let closed := source = .live ∧ s.rail.state = .opened ∧ s.voice.acousticLayer = false
    let u := match source with | .live => s.pedals.live.u | .playback => s.pedals.playback.u
    let sounding := max 1 (max 1 (min 127 level.toNat) * (256 - u) / 256)
    (requests.head? ≠ some (.strike key level) → exec (.voiceStrike source key level) s = .next s)
    ∧ (requests.head? = some (.strike key level) →
      (closed → exec (.voiceStrike source key level) s = .next { s with voice := taken })
      ∧ (¬ closed → s.wave.load.isSome = true → s.voice.notReady ≤ 65535 → exec (.voiceStrike source key level) s
        = .next { s with voice := { taken with notReady := min 65535 (s.voice.notReady + 1) } })
      ∧ (¬ closed → s.wave.load = none → s.voice.noZone ≤ 65535 →
        (∀ z ∈ s.wave.zones, z.key ≠ key.val ∨ sounding < z.levelLo ∨ z.levelHi < sounding) →
        exec (.voiceStrike source key level) s
          = .next { s with voice := { taken with noZone := min 65535 (s.voice.noZone + 1) } }))

/-- A STRIKE request that sounds (R88 to R93, R114): the first matching zone, the key's earlier voices of the source freed or
faded, and then the lowest FREE voice filled, or the victim of R92 where none is FREE (State.victim, whose choice is stated
beside this), with every other voice as it was. The voice is PRIMING and asks for its samples; of a zone with loop off and
length 0 nothing is fetched, and the voice is primed at once and takes its hold test (R95). A freed voice's buffer is emptied
(R113), a faded one keeps its own, and the port's arbiter then chooses (R115, R119). -/
def Obligations.StrikesFillTheLowestFreeVoice : Prop :=
  ∀ (s : State) (source : Source) (key : Key) (level : Byte) (zone : Nat) (z : ZoneEntry), s.inReset = false →
    let requests := match source with | .live => s.voice.liveRequests | .playback => s.voice.playbackRequests
    let taken := match source with
      | .live => { s.voice with liveRequests := s.voice.liveRequests.tail }
      | .playback => { s.voice with playbackRequests := s.voice.playbackRequests.tail }
    let u := match source with | .live => s.pedals.live.u | .playback => s.pedals.playback.u
    let sounding := max 1 (max 1 (min 127 level.toNat) * (256 - u) / 256)
    let fits := fun z : ZoneEntry => z.key = key.val ∧ z.levelLo ≤ sounding ∧ sounding ≤ z.levelHi
    let left := fun i : VoiceIx => let v := s.voice.voices[i]
      if v.state ≠ .free ∧ v.source = source ∧ v.key = key then
        (if v.state = .fading then { v with state := .free, primed := false, hold := .none }
          else { v with state := .fading, hold := .none })
      else v
    let faded := { s with voice := { s.voice with voices := Vector.ofFn left } }
    let bySource : Bool := match source with
      | .live => decide (s.scanner.keys[key].phase ≠ .idle)
      | .playback => decide (key ∈ s.player.held)
    let cause := if bySource then .source
      else if s.pedals.mergedSostenuto && decide (key ∈ s.pedals.latch) then .latch
      else if s.pedals.mergedLift = 255 then .lift else HoldCause.none
    requests.head? = some (.strike key level) →
    (source = .live → s.rail.state = .opened → s.voice.acousticLayer = true) → s.wave.load = none →
    s.wave.zones[zone]? = some z → fits z → (∀ n y, n < zone → s.wave.zones[n]? = some y → ¬ fits y) →
    ∃ (i : VoiceIx) (t : State), exec (.voiceStrike source key level) s = .next t
      ∧ t = { s with voice := { taken with voices := t.voice.voices }, wave := t.wave }
      ∧ ((∃ j, (left j).state = .free) → (left i).state = .free ∧ ∀ j : VoiceIx, j < i → (left j).state ≠ .free)
      ∧ ((∀ j, (left j).state ≠ .free) → i = faded.victim)
      ∧ (∀ j : VoiceIx, j ≠ i → t.voice.voices[j] = left j) ∧ t.wave.zones = s.wave.zones
      ∧ t = State.arbitrate { t with wave := { s.wave with buffers := Vector.ofFn fun j : VoiceIx =>
          if j = i then ⟨[], 0, decide (z.loop = false ∧ z.length = 0), decide (z.loop = true ∨ z.length ≠ 0), false⟩
          else if s.voice.voices[j].state = .fading ∧ s.voice.voices[j].source = source ∧ s.voice.voices[j].key = key
          then Buffer.reset else s.wave.buffers[j] } }
      ∧ let filled : Voice := {
          state := .priming, key := key, source := source, level := sounding
          gain := sounding * sounding * 4096 / 16129, zone := zone, position := 0, e := 65535, release := 64
          start := s.perfClock, generation := s.voice.voices[i].generation + 1, primed := false, hold := .none }
        if z.loop = true ∨ z.length ≠ 0 then
          t.voice.voices[i] = filled ∧ t.wave.buffers[i].samples = [] ∧ t.wave.buffers[i].fetchPosition = 0
          ∧ (t.wave.buffers[i].requesting = true ∨ t.wave.buffers[i].inFlight = true)
        else t.voice.voices[i] = { filled with
            state := if cause = .none then .damping else .sounding, primed := true, hold := cause }
          ∧ t.wave.buffers[i] = ⟨[], 0, true, false, false⟩

/-- The victim of a steal (R92), when no voice is FREE: the FADING voice of least e, else the DAMPING voice of least e, else
the voice of greatest age, the lowest-numbered among equals. -/
def Obligations.StealsFollowTheThreeRules : Prop :=
  ∀ s : State, (∀ i : VoiceIx, s.voice.voices[i].state ≠ .free) →
    let v := fun i : VoiceIx => s.voice.voices[i]
    let age := fun i : VoiceIx => (s.perfClock - (v i).start).toNat
    let least := fun (st : VoiceState) => (v s.victim).state = st ∧ ∀ i : VoiceIx, (v i).state = st →
      (v s.victim).e < (v i).e ∨ (v s.victim).e = (v i).e ∧ s.victim ≤ i
    ((∃ i, (v i).state = .fading) → least .fading)
    ∧ ((∀ i, (v i).state ≠ .fading) → (∃ i, (v i).state = .damping) → least .damping)
    ∧ ((∀ i, (v i).state = .priming ∨ (v i).state = .sounding) → ∀ i : VoiceIx,
        age i < age s.victim ∨ age i = age s.victim ∧ s.victim ≤ i)

/-- A RELEASE request (R83, R97): its level, clamped, goes to the voices of its key and source that are PRIMING, SOUNDING or
DAMPING, and nothing else changes. That a request waits for its command, and that a command which names no oldest request has
no effect, are the model's (notes/assumptions/4.md and 8.md). -/
def Obligations.ReleasesSetTheReleaseLevel : Prop :=
  ∀ (s : State) (source : Source) (key : Key) (level : Byte), s.inReset = false →
    let requests := match source with | .live => s.voice.liveRequests | .playback => s.voice.playbackRequests
    let taken := match source with
      | .live => { s.voice with liveRequests := s.voice.liveRequests.tail }
      | .playback => { s.voice with playbackRequests := s.voice.playbackRequests.tail }
    (requests.head? ≠ some (.release key level) → exec (.voiceRelease source key level) s = .next s)
    ∧ (requests.head? = some (.release key level) → ∃ voices : Vector Voice 96,
      exec (.voiceRelease source key level) s = .next { s with voice := { taken with voices := voices } }
      ∧ ∀ i : VoiceIx, let v := s.voice.voices[i]
        voices[i] = if v.key = key ∧ v.source = source
            ∧ (v.state = .priming ∨ v.state = .sounding ∨ v.state = .damping)
          then { v with release := min 127 level.toNat } else v)

/-- A tick of the performance clock (R98 to R101, R94): each voice's hold test and envelope step, its freeing below 64, and
the move timer's run. -/
def Obligations.TicksStepTheEnvelopes : Prop :=
  ∀ s : State, s.inReset = false → s.rail.moveTimer ≠ some 0 →
    ∃ (voices : Vector Voice 96) (buffers : Vector Buffer 96), exec .envelopeTick s = .next { s with
        perfClock := s.perfClock + 1
        rail := { s.rail with moveTimer := s.rail.moveTimer.map fun n => n - 1 }
        voice := { s.voice with voices := voices }, wave := { s.wave with buffers := buffers } }
      ∧ ∀ i : VoiceIx,
        let v := s.voice.voices[i]
        let bySource : Bool := match v.source with
          | .live => decide (s.scanner.keys[v.key].phase ≠ .idle)
          | .playback => decide (v.key ∈ s.player.held)
        let cause := if bySource then .source
          else if s.pedals.mergedSostenuto && decide (v.key ∈ s.pedals.latch) then .latch
          else if s.pedals.mergedLift = 255 then .lift else HoldCause.none
        let rate := (2048 + 32 * v.release) * (255 - s.pedals.mergedLift) / 255
        let stepped : Voice := match v.state with
          | .fading => { v with e := v.e - v.e * 16384 / 65536 }
          | .sounding | .damping => if cause = .none
              then { v with state := .damping, hold := .none, e := v.e - v.e * rate / 65536 }
              else { v with state := .sounding, hold := cause }
          | _ => v
        let ends : Bool := v.state ≠ .free ∧ v.state ≠ .priming ∧ stepped.e < 64
        voices[i] = (if ends then { stepped with state := .free, primed := false, hold := .none } else stepped)
        ∧ buffers[i] = if ends then Buffer.reset else s.wave.buffers[i]

/-- A FADING voice falls at every step and is freed at the 25th from 65,535 (R100); a DAMPING voice falls while e is 64 or
more at a rate of 1,024 or more, and rests where e times its rate is below 65,536 (R99). -/
def Obligations.EnvelopesFallUntilFreed : Prop :=
  (∀ (lift : Nat) (v : Voice), v.state = .fading → 64 ≤ v.e → (envelopeStep lift v).e < v.e)
    ∧ (∀ (lift : Nat) (v : Voice), v.state = .damping →
      (64 ≤ v.e → 1024 ≤ dampingRate v.release lift → (envelopeStep lift v).e < v.e)
      ∧ (v.e * dampingRate v.release lift < 65536 → envelopeStep lift v = v))
    ∧ ∀ (lift : Nat) (v : Voice), v.state = .fading → v.e = 65535 →
      (∀ n, n ≤ 24 → 64 ≤ ((envelopeStep lift)^[n] v).e) ∧ ((envelopeStep lift)^[25] v).e < 64

/-- An audio frame (R102, R103, R118, R121, R125 to R130, R132): what each voice gives (by R102's formula where its table
differs by one, notes/assumptions/27.md), takes and becomes; the refill each sample taken may ask for (R115), put to the arbiter when every voice has been taken
(notes/assumptions/22.md); the underruns counted; the pan of each voice's output into the
buses of its source, whose sums are saturated once; the channels' sides with the current gains, in the slots by the routing
table; the ramps; the values sent, which are those mixed a frame earlier, and their 256 bits, slot 0 first, each value in
two's complement with its most significant bit first and eight 0s after it; and the frames of 0 of a part held in reset. -/
def Obligations.FramesMixEveryVoice : Prop :=
  (∀ s : State, s.inReset = true → ∃ t, exec .audioFrame s = .next t
    ∧ t = { s with audio := { s.audio with sent := Vector.replicate 8 0 } } ∧ t.audio.frameBits = List.replicate 256 false)
  ∧ (∀ n : Fin 256, frameClockBits[n.val]? = some (decide (n.val = 0)))
  ∧ ∀ s : State, s.inReset = false → ∃ t, exec .audioFrame s = .next t
    ∧ t = { s with
        audio := t.audio, wave := t.wave
        voice := { s.voice with voices := t.voice.voices, underrun := t.voice.underrun } }
    ∧ t.wave.zones = s.wave.zones ∧ t.audio.sent = s.audio.slots ∧ t.audio.routes = s.audio.routes
    ∧ (t.audio.frameBits.length = 256 ∧ ∀ (n : Fin 8) (k : Fin 32), t.audio.frameBits[32 * n.val + k.val]?
      = some (decide (k.val < 24) && (BitVec.ofInt 24 s.audio.slots[n]).getMsbD k.val))
    ∧ (t.audio.hp1 = ⟨s.audio.hp1.live.ramp, s.audio.hp1.playback.ramp⟩
      ∧ t.audio.hp2 = ⟨s.audio.hp2.live.ramp, s.audio.hp2.playback.ramp⟩
      ∧ t.audio.line = ⟨s.audio.line.live.ramp, s.audio.line.playback.ramp⟩)
    ∧ let limited := fun x : Int => max (-8388607) (min 8388607 x)
      let side := fun (c : Channel) (live playback : Int) =>
        let g := match c with | .hp1 => s.audio.hp1 | .hp2 => s.audio.hp2 | .line => s.audio.line
        limited ((live * g.live.current).tdiv 128 + (playback * g.playback.current).tdiv 128)
      let gives := fun i : VoiceIx => let v := s.voice.voices[i]
        decide (v.state = .sounding ∨ v.state = .damping ∨ v.state = .fading ∧ v.primed = true)
      let output := fun i : VoiceIx => let v := s.voice.voices[i]
        match gives i, s.wave.buffers[i].samples with
        | true, w :: _ => (w * v.gain * v.e).tdiv 1048576
        | _, _ => 0
      let pan := fun i : VoiceIx => s.voice.voices[i].key.val * 128 / 88
      let sum := fun (source : Source) (share : VoiceIx → Int) =>
        limited (∑ i : VoiceIx, if s.voice.voices[i].source = source then share i else 0)
      let left := fun i => (output i * ((128 - pan i : Nat) : Int)).tdiv 128
      let right := fun i => (output i * (pan i : Int)).tdiv 128
      let starved := fun i : VoiceIx =>
        gives i && s.wave.buffers[i].samples.isEmpty && !s.wave.buffers[i].endFetched
      t.audio.buses = ⟨sum .live left, sum .live right, sum .playback left, sum .playback right⟩
      ∧ (∀ n : Fin 8, t.audio.slots[n] = match s.audio.routes[n] with
          | .off => 0
          | .out c .left => side c t.audio.buses.liveL t.audio.buses.playL
          | .out c .right => side c t.audio.buses.liveR t.audio.buses.playR)
      ∧ t.voice.underrun = min 65535 (s.voice.underrun + (allVoices.filter starved).length)
      ∧ (let kept := fun i : VoiceIx => let b := s.wave.buffers[i]
          match gives i, b.samples with
          | false, _ => b
          | true, [] => if b.endFetched = true then Buffer.reset else b
          | true, _ :: rest =>
            if rest = [] ∧ b.endFetched = true then Buffer.reset
            else { b with samples := rest, requesting := decide (rest.length ≤ 64) && !b.inFlight && !b.endFetched }
        t = State.arbitrate { s with
          audio := t.audio, voice := t.voice, wave := { s.wave with buffers := Vector.ofFn kept } })
      ∧ ∀ i : VoiceIx,
        let v := s.voice.voices[i]
        let b := s.wave.buffers[i]
        let freed := { v with state := .free, primed := false, hold := .none }
        (gives i = false → t.voice.voices[i] = v)
        ∧ (gives i = true → b.samples = [] → b.endFetched = false → t.voice.voices[i] = v)
        ∧ (gives i = true → b.samples = [] → b.endFetched = true →
          t.voice.voices[i] = freed ∧ t.wave.buffers[i] = Buffer.reset)
        ∧ ∀ w rest, gives i = true → b.samples = w :: rest →
          let z := s.zoneOf v
          let next := if z.loop = true ∧ z.length ≤ v.position + 1 then z.loopStart else v.position + 1
          if rest = [] ∧ b.endFetched = true
          then t.voice.voices[i] = { freed with position := next } ∧ t.wave.buffers[i] = Buffer.reset
          else t.voice.voices[i] = { v with position := next } ∧ t.wave.buffers[i].samples = rest

/-- A gain's ramp is complete after as many frames as its current value lies from its target, and moves one at a time
(R130). -/
def Obligations.RampsEndAtTheirTarget : Prop :=
  ∀ g : Gain, let distance := (g.target - g.current) + (g.current - g.target)
    (∀ n, distance ≤ n → (Gain.ramp^[n] g) = ⟨g.target, g.target⟩)
    ∧ ∀ n, n < distance → (Gain.ramp^[n] g).current
      = if g.current < g.target then g.current + n else g.current - n

/-- A fetch arrives (R117, R120): stale data changes no voice and no buffer but by the next choice of the port, and data whose
tag matches enters its buffer, moves the fetch position, primes a voice that then holds 32 samples or its zone's end (R95,
R96), and has the refill condition examined (R115). The arbiter (R119), which every arrival, allocation and frame calls, does
nothing while the port carries a transfer; on a free port it starts the load read that waits, else the fetch of the requesting
voice with the fewest samples, the lowest-numbered among equals, with its burst and address (R116), else, with no load
running, the oldest diagnostic read. -/
def Obligations.FetchesFillTheirVoice : Prop :=
  (∀ (s : State) (i : VoiceIx) (generation : Byte) (address burst : Nat) (data : List Byte), s.inReset = false →
    s.wave.port = some (.fetch i generation address burst) → data.length = 2 * burst →
    let v := s.voice.voices[i]
    let b := s.wave.buffers[i]
    let z := s.zoneOf v
    let position := b.fetchPosition + burst
    let samples := b.samples ++ (List.range burst).map fun n =>
      (BitVec.ofNat 16 ((data.getD (2 * n) 0).toNat + 256 * (data.getD (2 * n + 1) 0).toNat)).toInt
    let ended := b.endFetched || (decide (z.length ≤ position) && !z.loop)
    let primed := { v with primed := true }
    let held := { primed with hold := s.holdCause v, state := if s.holdCause v = .none then .damping else .sounding }
    let voice := if v.primed = false ∧ (32 ≤ b.samples.length + burst ∨ ended = true) then
      (if v.state = .priming then held else primed) else v
    let buffer : Buffer := {
      samples := samples
      fetchPosition := if z.length ≤ position ∧ z.loop = true then z.loopStart else position
      endFetched := ended
      requesting := decide (b.samples.length + burst ≤ 64) && !ended
      inFlight := false }
    ((v.state = .free ∨ v.generation ≠ generation) → exec (.fetchArrival data) s
      = .next (State.arbitrate { s with wave := { s.wave with port := none } }))
    ∧ (v.state ≠ .free → v.generation = generation → exec (.fetchArrival data) s = .next (State.arbitrate { s with
        voice := { s.voice with voices := s.voice.voices.set i voice }
        wave := { s.wave with port := none, buffers := s.wave.buffers.set i buffer } })))
  ∧ ∀ s : State,
    let w := s.wave
    (∀ p, w.port = some p → s.arbitrate = s)
    ∧ (w.port = none →
      (∀ l, w.load = some l → l.waiting = true → s.arbitrate = { s with wave := { w with
        load := some { l with waiting := false }
        port := some (match l.zoneCount with
          | none => .loadRead 0 8 false
          | some _ => .loadRead (8 + 16 * l.done) (16 * min 8 (l.total - l.done)) false) } })
      ∧ ((∀ l, w.load = some l → l.waiting = false) →
        (∀ i : VoiceIx, w.buffers[i].requesting = true →
          (∀ j : VoiceIx, w.buffers[j].requesting = true → w.buffers[i].samples.length < w.buffers[j].samples.length
            ∨ w.buffers[i].samples.length = w.buffers[j].samples.length ∧ i ≤ j) →
          let v := s.voice.voices[i]
          let b := w.buffers[i]
          let z := s.zoneOf v
          s.arbitrate = { s with wave := { w with
            port := some (.fetch i v.generation (z.start + 2 * b.fetchPosition) (min 32 (z.length - b.fetchPosition)))
            buffers := w.buffers.set i { b with inFlight := true, requesting := false } } })
        ∧ ((∀ i : VoiceIx, w.buffers[i].requesting = false) →
          (w.load ≠ none ∨ w.diagnostics = [] → s.arbitrate = s)
          ∧ ∀ d rest, w.load = none → w.diagnostics = d :: rest → s.arbitrate = { s with wave := { w with
            port := some (.diagnostic d.address d.count), diagnostics := rest } })))

/-- The reads of a zone load (R108, R110, R111): the header, an entry read with the validity of each 16-byte entry, and the
load's end, which ends LOAD ZONES with the summary as its result and OP_DONE, and begins the learning step of STARTUP (R188);
BAD_STORE raises WAVE_FAULT. The data of an aborted load is discarded (R112). -/
def Obligations.LoadReadsBuildTheTable : Prop :=
  ∀ (s : State) (address count : Nat) (data : List Byte), s.inReset = false → data.length = count →
    let freed := { s with wave := { s.wave with port := none } }
    let ended := fun (t : State) (zones : List ZoneEntry) (m : LoadSummary) (notices : BitVec 11) =>
      t = { s with wave := t.wave, scanner := t.scanner, link := t.link }
      ∧ t.wave.load = none ∧ t.wave.zones = zones ∧ t.wave.summary = m
      ∧ (s.link.slot = .running .loadZones → t.scanner = s.scanner ∧ t.link = { s.link with
          slot := .finished .loadZones m.outcome (.load m)
          pendingSet := s.link.pendingSet ||| notices ||| Notice.opDone.bit })
      ∧ (s.link.slot = .running .startup →
        t.scanner = { s.scanner with learning := some ⟨0, Vector.replicate 90 ⟨0, 1023, 0⟩⟩ }
        ∧ t.link = { s.link with pendingSet := s.link.pendingSet ||| notices })
    let entryAt := fun start : Nat =>
      let byte := fun n => (data.getD (start + n) 0).toNat
      let word := fun n => byte n + 256 * byte (n + 1) + 65536 * byte (n + 2) + 16777216 * byte (n + 3)
      if byte 0 ≤ 87 ∧ 1 ≤ byte 1 ∧ byte 1 ≤ byte 2 ∧ byte 2 ≤ 127 ∧ byte 3 ≤ 1 ∧ word 4 + 2 * word 8 ≤ 67108864
          ∧ (byte 3 = 1 → word 12 < word 8)
      then some (ZoneEntry.mk (byte 0) (byte 1) (byte 2) (decide (byte 3 = 1)) (word 4) (word 8) (word 12)) else none
    (s.wave.port = some (.loadRead address count true) → exec (.loadReadArrival data) s = .next freed.arbitrate)
    ∧ (s.wave.port = some (.loadRead address count false) → ∀ l, s.wave.load = some l →
      (l.zoneCount = none →
        (data.take 4 ≠ [0x50#8, 0x56#8, 0x57#8, 0x53#8] → ∃ t, exec (.loadReadArrival data) s = .next t
          ∧ ended t s.wave.zones ⟨.badStore, none, 0, 0⟩ Notice.waveFault.bit)
        ∧ (data.take 4 = [0x50#8, 0x56#8, 0x57#8, 0x53#8] →
          let zones := leNat ((data.drop 4).take 4)
          (zones = 0 → ∃ t, exec (.loadReadArrival data) s = .next t ∧ ended t s.wave.zones ⟨.complete, some 0, 0, 0⟩ 0)
          ∧ (zones ≠ 0 → exec (.loadReadArrival data) s = .next { s with wave := { s.wave with
              load := some ⟨some zones, min zones 512, 0, 0, false⟩
              port := some (.loadRead 8 (16 * min 8 (min zones 512)) false) } })))
      ∧ (∀ zones, l.zoneCount = some zones →
        let entries := (List.range (data.length / 16)).map fun n => entryAt (16 * n)
        let valid := entries.filterMap id
        let skipped := l.skipped + (entries.length - valid.length)
        let done := l.done + entries.length
        (l.total ≤ done → ∃ t, exec (.loadReadArrival data) s = .next t ∧ ended t (s.wave.zones ++ valid)
          ⟨if zones ≤ 512 then .complete else .truncated, some zones, (s.wave.zones ++ valid).length, skipped⟩ 0)
        ∧ (done < l.total → exec (.loadReadArrival data) s = .next { s with wave := { s.wave with
            zones := s.wave.zones ++ valid
            load := some { l with done := done, skipped := skipped, waiting := false }
            port := some (.loadRead (8 + 16 * done) (16 * min 8 (l.total - done)) false) } })))

/-- READ WAVE STORE (R122, R119, R180): checked, then waiting at the arbiter with the dispatcher SERVING; its arrival forms
the reply. That data of another length than was asked for has no effect is the model's choice (notes/assumptions/4.md). -/
def Obligations.DiagnosticReadsReturnTheirBytes : Prop :=
  (∀ (s : State) (address : Long) (count : Byte), s.taking →
    if 1 ≤ count.toNat ∧ count.toNat ≤ 128 ∧ address.toNat + count.toNat ≤ 67108864 then
      (∀ p, s.wave.port = some p → exec (.readWaveStore address count) s = .next { s with
        wave := { s.wave with diagnostics := s.wave.diagnostics ++ [⟨address.toNat, count.toNat⟩] }
        link := { s.link with dispatcher := .serving } })
      ∧ (s.wave.port = none → s.wave.load = none → s.wave.diagnostics = [] →
        (∀ i : VoiceIx, s.wave.buffers[i].requesting = false) → exec (.readWaveStore address count) s = .next { s with
          wave := { s.wave with port := some (.diagnostic address.toNat count.toNat) }
          link := { s.link with dispatcher := .serving } })
    else exec (.readWaveStore address count) s = .next (s.replying 0x32#8 .badValue []))
  ∧ ∀ (s : State) (address count : Nat) (data : List Byte), s.inReset = false → s.link.dispatcher = .serving →
    s.wave.port = some (.diagnostic address count) →
    (data.length = count → exec (.diagnosticReadArrival data) s
      = .next ((State.arbitrate { s with wave := { s.wave with port := none } }).replying 0x32#8 .ok data))
    ∧ (data.length ≠ count → exec (.diagnosticReadArrival data) s = .next s)

/-- RECORD START, STOP, FLUSH and READ RECORD BLOCK (R144, R53, R146, R145, R147, R141, R143): when each is refused, and what
it leaves in the two blocks. A recovery (R143) writes the GAP records of a longer time and then the LOST record (R139) into the
block that becomes ACTIVE; a block that fills before the LOST record is written leaves it pending, with the time its GAP
records reached, from which the next recovery goes on. -/
def Obligations.RecorderRequestsMoveTheBlocks : Prop :=
  ∀ s : State, s.taking →
    let r := s.recorder
    let v := s.pedals.live
    let readied := fun (n : BlockName) (q : Recorder) => { q.withBlock n { r.block n with state := .ready r.sequence } with
      sequence := r.sequence + 1, readyFirst := if (r.block n.other).state.isReady then some n.other else none }
    let next := fun (kind : Byte) payload (q : Recorder) => Host.Outcome.next (State.replying kind .ok payload { s with recorder := q })
    let started := fun mask records => { s with
      recorder := {
        recording := true, mask := mask, blockA := ⟨.active, records⟩, blockB := ⟨.empty, []⟩, readyFirst := none
        sequence := r.sequence, lastWritten := s.perfClock, lostCount := 0, firstLost := none, recoveryPending := false }
      pedals := { s.pedals with refLift := v.lift, refSostenuto := v.sostenuto, refUnaCorda := v.unaCorda } }
    let opening : List Record := [⟨3, 0, BitVec.ofNat 8 v.lift, 0⟩, ⟨3, 1, if v.sostenuto then 1 else 0, 0⟩,
      ⟨3, 2, BitVec.ofNat 8 v.unaCorda, 0⟩]
    (∀ mask : Byte, (mask = 0 ∨ 4 ≤ mask.toNat → exec (.recordStart mask) s = .next (s.replying 0x40#8 .badValue []))
      ∧ (1 ≤ mask.toNat → mask.toNat ≤ 3 → (r.recording = true ∨ r.anyReady = true) →
        exec (.recordStart mask) s = .next (s.replying 0x40#8 .wrongState [])))
    ∧ (r.recording = false → r.anyReady = false →
      exec (.recordStart 1) s = .next (State.replying 0x40#8 .ok [] (started .live opening))
      ∧ exec (.recordStart 2) s = .next (State.replying 0x40#8 .ok [] (started .playback []))
      ∧ exec (.recordStart 3) s = .next (State.replying 0x40#8 .ok [] (started .both opening)))
    ∧ (r.recording = false → exec .recordStop s = next 0x41#8 [] r
      ∧ exec .recordFlush s = .next (s.replying 0x42#8 .wrongState []))
    ∧ (r.recording = true → r.blockA.state ≠ .active → r.blockB.state ≠ .active →
      exec .recordStop s = next 0x41#8 [] { r with recording := false } ∧ exec .recordFlush s = next 0x42#8 [] r)
    ∧ (∀ n, r.recording = true → (r.block n).state = .active → (r.block n.other).state ≠ .active →
      ((r.block n).records = [] → exec .recordStop s = next 0x41#8 [] { r.withBlock n ⟨.empty, []⟩ with recording := false }
        ∧ exec .recordFlush s = next 0x42#8 [] r)
      ∧ ((r.block n).records ≠ [] → exec .recordStop s = next 0x41#8 [] { readied n r with recording := false }
        ∧ exec .recordFlush s = next 0x42#8 [] (if (r.block n.other).state = .empty
            then readied n (r.withBlock n.other ⟨.active, []⟩) else readied n r)))
    ∧ (r.anyReady = false → exec .readRecordBlock s = .next (s.replying 0x43#8 .notReady []))
    ∧ ∀ n sequence, (r.block n).state = .ready sequence →
      ((r.block n.other).state.isReady = true → r.readyFirst = some n) →
      let given := (if n = .a then 0 else 1) :: sequence :: u8 (r.block n).records.length
        ++ (r.block n).records.flatMap Record.bytes
      let read := fun b : RecordBlock => next 0x43#8 given { r.withBlock n b with readyFirst := none }
      ((r.recording = false ∨ (r.block n.other).state = .active) → exec .readRecordBlock s = read ⟨.empty, []⟩)
      ∧ (r.recording = true → (r.block n.other).state ≠ .active → r.lostCount = 0 →
        exec .readRecordBlock s = read ⟨.active, []⟩)
      ∧ ∀ first, r.recording = true → (r.block n.other).state ≠ .active → 0 < r.lostCount → r.firstLost = some first →
        let wait := (first - r.lastWritten).toNat
        let rest := wait % 65535
        let delta := if 255 < rest then 0 else rest
        let written : List Record := List.replicate (wait / 65535) ⟨4, 0xFF#8, 0xFF#8, 0⟩
          ++ (if 255 < rest then [⟨4, BitVec.ofNat 8 rest, BitVec.ofNat 8 (rest / 256), 0⟩] else [])
          ++ [⟨5, BitVec.ofNat 8 r.lostCount, BitVec.ofNat 8 (r.lostCount / 256), BitVec.ofNat 8 delta⟩]
        let recovered := fun q : Recorder => { q with
          lastWritten := first, lostCount := 0, firstLost := none, recoveryPending := false }
        let filled := { r.withBlock n ⟨.ready r.sequence, written.take 48⟩ with sequence := r.sequence + 1 }
        (written.length < 48 → exec .readRecordBlock s
          = next 0x43#8 given (recovered { r.withBlock n ⟨.active, written⟩ with readyFirst := none }))
        ∧ ((r.block n.other).state = .empty → 48 ≤ written.length → written.length < 96 → exec .readRecordBlock s
          = next 0x43#8 given (recovered { filled.withBlock n.other ⟨.active, written.drop 48⟩ with readyFirst := none }))
        ∧ ((r.block n.other).state.isReady = true →
          (written.length = 48 → exec .readRecordBlock s
            = next 0x43#8 given (recovered { filled with readyFirst := some n.other }))
          ∧ (48 < written.length → exec .readRecordBlock s = next 0x43#8 given { filled with
              readyFirst := some n.other, recoveryPending := true
              lastWritten := r.lastWritten + BitVec.ofNat 32 (min (wait - delta) (65535 * 48)) }))

/-- An event offered to the recorder (R138): taken while RECORDING with its source in the mask, a mark always, and ignored
otherwise. An event taken (R139, R141, R142) is written after the GAP records of a longer time, into the ACTIVE block and,
past its 48th record, into the other where that is EMPTY; or it is lost, with no block ACTIVE and the GAP records that were
written kept. The first loss is stamped and raises RECORD_LOST, and the loss that brings the count to 65,535 ends the
recording. -/
def Obligations.EventsAreWrittenOrLost : Prop :=
  (∀ (r : Recorder) (now : Time) (e : RecorderEvent), r.ok → r.recording = true → r.lostCount < 65535 →
    let t := (r.take now e).1
    let first := (r.take now e).2
    let remaining := (now - r.lastWritten).toNat
    let rest := remaining % 65535
    let delta := if 255 < rest then 0 else rest
    let lost := t.activeBlock = none ∧ t.lostCount = r.lostCount + 1
      ∧ t.firstLost = (if r.lostCount = 0 then some now else r.firstLost) ∧ first = decide (r.lostCount = 0)
      ∧ t.recording = decide (r.lostCount + 1 < 65535)
    (r.activeBlock = none → lost ∧ t.blockA = r.blockA ∧ t.blockB = r.blockB ∧ t.lastWritten = r.lastWritten)
    ∧ (∀ n, r.activeBlock = some n →
      let other := r.block n.other
      let written := (r.block n).records ++ List.replicate (remaining / 65535) ⟨4, 0xFF#8, 0xFF#8, 0⟩
        ++ (if 255 < rest then [⟨4, BitVec.ofNat 8 rest, BitVec.ofNat 8 (rest / 256), 0⟩] else [])
        ++ [e.record (BitVec.ofNat 8 delta)]
      (written.length < 48 → t = { r.withBlock n ⟨.active, written⟩ with lastWritten := now } ∧ first = false)
      ∧ (48 ≤ written.length → other.state = .empty → written.length < 96 →
        t = { (r.withBlock n ⟨.ready r.sequence, written.take 48⟩).withBlock n.other ⟨.active, written.drop 48⟩ with
          sequence := r.sequence + 1, readyFirst := none, lastWritten := now } ∧ first = false)
      ∧ (other.state.isReady = true →
        (written.length = 48 → t = { r.withBlock n ⟨.ready r.sequence, written⟩ with
          sequence := r.sequence + 1, readyFirst := some n.other, lastWritten := now } ∧ first = false)
        ∧ (48 < written.length → lost ∧ t.block n = ⟨.ready r.sequence, written.take 48⟩ ∧ t.block n.other = other
          ∧ t.sequence = r.sequence + 1 ∧ t.readyFirst = some n.other ∧ t.lastWritten
            = r.lastWritten + BitVec.ofNat 32 (min (remaining - delta) (65535 * (48 - (r.block n).records.length))))))
    ∧ (lost ∨ (∃ n delta, (t.block n).records.getLast? = some (e.record delta)) ∧ t.lastWritten = now
        ∧ t.lostCount = r.lostCount ∧ t.firstLost = r.firstLost ∧ t.recording = true ∧ first = false))
  ∧ ∀ (s : State) (e : RecorderEvent),
    let taken := fun e => { s with
      recorder := (s.recorder.take s.perfClock e).1
      link := { s.link with pendingSet :=
        if (s.recorder.take s.perfClock e).2 then s.link.pendingSet ||| Notice.recordLost.bit else s.link.pendingSet } }
    let included := fun source : Source =>
      s.recorder.mask = .both ∨ s.recorder.mask = (match source with | .live => .live | .playback => .playback)
    (∀ source, s.offer source e = if s.recorder.recording = true ∧ included source then taken e else s)
    ∧ ∀ segment pass, s.offerMark segment pass = if s.recorder.recording = true then taken (.mark segment pass) else s

/-- WRITE PASSAGE and WRITE SEGMENT with their readings, SET SPLIT and SET MASTER TEMPO (R152 to R157): what is written is
what is read back, and no other slot or entry changes. -/
def Obligations.PlayerStoresReadBack : Prop :=
  ∀ s : State, s.taking → s.player.ok →
    (∀ (start : Half) (count : Byte) (records : List Record), records.length = count.toNat →
      if 1 ≤ count.toNat ∧ count.toNat ≤ 60 ∧ start.toNat ≤ 8191 ∧ start.toNat + count.toNat ≤ 8192 then
        ((s.player.state = .running ∨ s.player.state = .waiting) →
          exec (.writePassage start count records) s = .next (s.replying 0x50#8 .wrongState []))
        ∧ (s.player.state ≠ .running → s.player.state ≠ .waiting → ∃ passage,
          exec (.writePassage start count records) s
            = .next (State.replying 0x50#8 .ok [] { s with player := { s.player with passage := passage } })
          ∧ ∀ slot, passageAt passage slot = if start.toNat ≤ slot ∧ slot < start.toNat + count.toNat
              then records.getD (slot - start.toNat) nopRecord else passageAt s.player.passage slot)
      else exec (.writePassage start count records) s = .next (s.replying 0x50#8 .badValue []))
    ∧ (∀ (number : Byte) (f : SegFields),
      let good := f.start.toNat ≤ 8191 ∧ f.start.toNat + f.count.toNat ≤ 8192 ∧ f.repeats.toNat ≤ 16 ∧ 25 ≤ f.tempo.toNat
        ∧ f.tempo.toNat ≤ 200 ∧ f.hands.toNat ≤ 3 ∧ f.wait.toNat ≤ 1 ∧ (f.next.toNat ≤ 31 ∨ f.next.toNat = 255)
      (32 ≤ number.toNat ∨ ¬ good → exec (.writeSegment number f) s = .next (s.replying 0x52#8 .badValue []))
      ∧ (32 ≤ number.toNat → exec (.readSegment number) s = .next (s.replying 0x53#8 .badValue []))
      ∧ ∀ h : number.toNat < 32,
        exec (.readSegment number) s = .next (s.replying 0x53#8 .ok (s.player.segments[number.toNat].fields.bytes))
        ∧ (good → ∃ seg : Segment, seg.fields = f ∧ exec (.writeSegment number f) s
          = .next (State.replying 0x52#8 .ok [] { s with player := { s.player with
              segments := s.player.segments.set number.toNat seg h } })))
    ∧ (∀ key : Byte, (88 ≤ key.toNat → exec (.setSplit key) s = .next (s.replying 0x54#8 .badValue []))
      ∧ ∀ h : key.toNat < 88, exec (.setSplit key) s = .next (if s.player.state = .idle then
          State.replying 0x54#8 .ok [] { s with player := { s.player with split := ⟨key.toNat, h⟩ } }
        else s.replying 0x54#8 .wrongState []))
    ∧ ∀ tempo : Byte, exec (.setMasterTempo tempo) s = .next (if 50 ≤ tempo.toNat ∧ tempo.toNat ≤ 150 then
          State.replying 0x55#8 .ok [] { s with player := { s.player with masterTempo := tempo.toNat } }
        else s.replying 0x55#8 .badValue [])

/-- PLAY PAUSE, PLAY RESUME and PLAY RESET (R169, R170, R173). -/
def Obligations.PauseResumeAndResetFollowTheState : Prop :=
  ∀ s : State, s.taking →
    let st := s.player.state
    let next := fun (kind : Byte) player => Host.Outcome.next (State.replying kind .ok [] { s with player := player })
    (st = .running → exec .playPause s = next 0x57#8 { s.player with state := .pausedRunning, tempo := none })
    ∧ (st = .waiting → exec .playPause s = next 0x57#8 { s.player with state := .pausedWaiting, tempo := none })
    ∧ (st ≠ .running → st ≠ .waiting → exec .playPause s = .next (s.replying 0x57#8 .wrongState []))
    ∧ (∀ n seg, st = .pausedRunning → s.player.copy = some (n, seg) →
      exec .playResume s = next 0x58#8 { s.player with
        state := .running, tempo := some (100000 / max 25 (min 200 (seg.tempo * s.player.masterTempo / 100))) })
    ∧ (st = .pausedRunning → ∃ (t : State) (period : Nat), exec .playResume s = .next t
      ∧ t.player = { s.player with state := .running, tempo := some period })
    ∧ (st = .pausedWaiting → exec .playResume s = next 0x58#8 { s.player with state := .waiting })
    ∧ (st ≠ .pausedRunning → st ≠ .pausedWaiting → exec .playResume s = .next (s.replying 0x58#8 .wrongState []))
    ∧ ((st = .haltedBadEvent ∨ st = .haltedChainEmpty) → exec .playReset s = next 0x5A#8 { s.player with state := .idle })
    ∧ (st = .idle → exec .playReset s = next 0x5A#8 s.player)
    ∧ ((st = .running ∨ st = .waiting ∨ st = .pausedRunning ∨ st = .pausedWaiting) →
      exec .playReset s = .next (s.replying 0x5A#8 .wrongState []))
    ∧ ∀ pins, ∃ t, exec (.resetNHigh pins) { s with inReset := true } = .next t ∧ t.player = Player.reset

/-- PLAY START and PLAY STOP (R160 to R162, R166, R171, R172): the refusals; the first segment with records, at once or after a
chain of empty ones, begun with its MARK and followed by a firing run (PlaybackTicksFireOrWait), in which its first records
without time fire, of any kind; a chain that ends at END, and one of 32, which halts (also where its last names END, the model's
choice, notes/assumptions/31.md); and the playback clearing of a stop. The period that starts before the first load is that of
the copy then held (notes/assumptions/25.md), and without one a free value within R158's limits (notes/assumptions/1.md). -/
def Obligations.PlayStartsAndStops : Prop :=
  ∀ s : State, s.taking → s.player.ok →
    (∀ segment : Byte, (32 ≤ segment.toNat → exec (.playStart segment) s = .next (s.replying 0x56#8 .badValue []))
      ∧ (segment.toNat < 32 → s.player.state ≠ .idle → exec (.playStart segment) s = .next (s.replying 0x56#8 .wrongState [])))
    ∧ (∀ (chain : Nat → Fin 32) (empty : Nat), s.player.state = .idle →
      (∀ i < empty, s.player.segments[chain i].count = 0) →
      (∀ i, i + 1 < empty → s.player.segments[chain i].next = some (chain (i + 1))) →
      let start := Instr.playStart (BitVec.ofNat 8 (chain 0).val)
      let after := if empty = 0 then some (chain 0) else s.player.segments[chain (empty - 1)].next
      let answered := fun t : State => Host.Outcome.next (t.replying 0x56#8 .ok [])
      (∀ n, after = some n → s.player.segments[n].count ≠ 0 → empty ≤ 31 →
        let seg := s.player.segments[n]
        let time := (passageAt s.player.passage seg.start).delta.toNat
        let begun := fun (period draws : Nat) => State.offerMark (BitVec.ofNat 8 n.val) 1 { s with
          draws := draws
          player := { s.player with
            state := .running, copy := some (n, seg), next := seg.next, slot := seg.start
            repsLeft := if seg.repeats = 0 then .endless else .left seg.repeats
            pass := 1, countdown := time, gap := 0, satisfied := none, skips := 0, wrong := 0, expected := []
            tempo := some period } }
        let starts := fun t : State => exec start s = answered (State.firingRun runFuel (decide (time = 0)) t)
          ∧ (time ≠ 0 → exec start s = answered t)
        (s.player.copy = none → ∃ period, 500 ≤ period ∧ period ≤ 4000 ∧ starts (begun period (s.draws + 1)))
        ∧ ∀ m old, s.player.copy = some (m, old) →
          starts (begun (100000 / max 25 (min 200 (old.tempo * s.player.masterTempo / 100))) s.draws))
      ∧ (after = none → empty ≤ 31 → ∃ t, exec start s = .next t ∧ t.player.state = .idle ∧ t.player.tempo = none
        ∧ t.player.skips = empty ∧ t.isPending .playEnd = true ∧ t.link.dispatcher = .sending ⟨0x56#8, .ok, []⟩ false)
      ∧ (empty = 32 → ∃ t, exec start s = .next t ∧ t.player.state = .haltedChainEmpty
        ∧ t.player.tempo = none ∧ t.player.skips = 32 ∧ t.isPending .playHalt = true
        ∧ t.link.dispatcher = .sending ⟨0x56#8, .ok, []⟩ false))
    ∧ ((s.player.state = .idle ∨ s.player.state = .haltedBadEvent ∨ s.player.state = .haltedChainEmpty) →
      exec .playStop s = .next (s.replying 0x59#8 .ok []))
    ∧ ((s.player.state = .running ∨ s.player.state = .waiting ∨ s.player.state = .pausedRunning
        ∨ s.player.state = .pausedWaiting) →
      let u := s.player.held.foldl (fun u k => State.offer .playback (.release k 64) u) s
      ∃ t : State, exec .playStop s = .next (t.replying 0x59#8 .ok [])
      ∧ t = { u with player := t.player, voice := t.voice, pedals := t.pedals }
      ∧ t.player = { s.player with state := .idle, held := [], expected := [], tempo := none, countdown := 0, gap := 0 }
      ∧ t.voice = { s.voice with playbackRequests := s.voice.playbackRequests
          ++ (s.player.held.map fun k => NoteRequest.release k 64) }
      ∧ t.pedals = { s.pedals with
          playback := ⟨0, false, 0, 0⟩, mergedLift := s.pedals.live.lift, mergedSostenuto := s.pedals.live.sostenuto
          latch := if s.pedals.live.sostenuto then (if s.pedals.mergedSostenuto then s.pedals.latch else
            allKeys.filter fun k => decide (s.scanner.keys[k].phase ≠ .idle)) else [] })

/-- A playback tick (R158, R159): the counter reloads, the countdown falls, and a firing run is made. A firing run stops where the
player is not RUNNING or the countdown is above 0. Otherwise the due record begins a wait (R167), which gathers the keys that
its lookahead finds and is satisfied through the last slot examined, or halts the player (R172), or fires, by its kind, its key
and the sounding hand (R163, R164), whether or not the recorder is RECORDING, and the run goes on with the next record of the
range, which fires in the same run where its delta and the carried gap are 0. What a record sounds or sets on the pedals is
offered to the recorder (a PEDAL record with its own value byte, the model's choice for a sostenuto value above 1,
notes/assumptions/32.md). That a PLAYBACK_TICK which is not due has no effect is the model's choice (notes/assumptions/4.md). -/
def Obligations.PlaybackTicksFireOrWait : Prop :=
  (∀ s : State, s.inReset = false → s.player.tempo ≠ some 0 → exec .playbackTick s = .next s)
  ∧ (∀ (s : State) (n : Fin 32) (seg : Segment), s.inReset = false → s.player.tempo = some 0 → s.player.state = .running →
    s.player.copy = some (n, seg) →
    exec .playbackTick s = .next (State.firingRun runFuel false { s with player := { s.player with
      countdown := s.player.countdown - 1
      tempo := some (100000 / max 25 (min 200 (seg.tempo * s.player.masterTempo / 100))) } }))
  ∧ (∀ (s : State) (zeroBegun : Bool), ¬ (s.player.state = .running ∧ s.player.countdown = 0) →
    State.firingRun runFuel zeroBegun s = s)
  ∧ ∀ (s : State) (n : Fin 32) (seg : Segment), s.player.copy = some (n, seg) →
    let p := s.player
    let sounds := fun k : Key => match seg.hands with
      | .both => true
      | .left => decide (k < p.split)
      | .right => decide (p.split ≤ k)
      | .none => false
    (∀ r : Record,
      let handed := fun (request : NoteRequest) (held : List Key) => { s with
        voice := { s.voice with playbackRequests := s.voice.playbackRequests ++ [request] }
        player := { p with held := held } }
      let merged := fun values : PedalValues =>
        let on := s.pedals.live.sostenuto || values.sostenuto
        { s with pedals := { s.pedals with
          playback := values, mergedLift := max s.pedals.live.lift values.lift, mergedSostenuto := on
          latch := if on then (if s.pedals.mergedSostenuto then s.pedals.latch else
            allKeys.filter fun k => decide (s.scanner.keys[k].phase ≠ .idle ∨ k ∈ p.held)) else [] } }
      let value := r.value.toNat
      ((r.kind = 0 ∨ r.kind = 5 ∨ r.kind = 6) → s.fireRecord r = some s)
      ∧ (∀ k : Key, r.kind = 1 → r.key.toNat = k.val →
        (sounds k = true → ∃ held, (∀ j : Key, j ∈ held ↔ j = k ∨ j ∈ p.held)
          ∧ s.fireRecord r = some (State.offer .playback (.strike k r.value) (handed (.strike k r.value) held)))
        ∧ (sounds k = false → s.fireRecord r = some s))
      ∧ (∀ k : Key, r.kind = 2 → r.key.toNat = k.val →
        ((sounds k = true ∨ k ∈ p.held) → ∃ held, (∀ j : Key, j ∈ held ↔ j ≠ k ∧ j ∈ p.held)
          ∧ s.fireRecord r = some (State.offer .playback (.release k r.value) (handed (.release k r.value) held)))
        ∧ (sounds k = false → k ∉ p.held → s.fireRecord r = some s))
      ∧ (r.kind = 3 →
        (r.key = 0 → s.fireRecord r = some (State.offer .playback (.pedal .damper r.value)
          (merged { s.pedals.playback with lift := value })))
        ∧ (r.key = 1 → s.fireRecord r = some (State.offer .playback (.pedal .sostenuto r.value)
          (merged { s.pedals.playback with sostenuto := decide (value ≠ 0) })))
        ∧ (r.key = 2 → s.fireRecord r = some (State.offer .playback (.pedal .unaCorda r.value)
          (merged { s.pedals.playback with unaCorda := value, u := value * 51 / 255 }))))
      ∧ (r.kind = 4 → s.fireRecord r = some { s with player := { p with gap := r.key.toNat + 256 * value } })
      ∧ ((7 ≤ r.kind.toNat ∨ (r.kind = 1 ∨ r.kind = 2) ∧ 88 ≤ r.key.toNat ∨ r.kind = 3 ∧ 3 ≤ r.key.toNat) →
        s.fireRecord r = none))
    ∧ ∀ zeroBegun : Bool, p.rangesOk → p.state = .running → p.countdown = 0 →
      let due := passageAt p.passage p.slot
      let run := State.firingRun runFuel zeroBegun
      let waits := fun k : Key => seg.wait = true ∧ due.kind = 1 ∧ due.key.toNat = k.val ∧ sounds k = false
        ∧ ∀ through, p.satisfied = some through → through < p.slot
      (∀ k : Key, waits k → ∃ examined, p.examines (fun j => !sounds j) k examined
        ∧ let expected := p.gathers (fun j => !sounds j) k examined
        k ∈ expected ∧ expected.length ≤ 10 ∧ (∀ j ∈ expected, sounds j = false)
        ∧ run s = State.raise .playWait { s with player := { p with
            state := .waiting, tempo := none, expected := expected, satisfied := some (p.slot + examined) } })
      ∧ ((∀ k, ¬ waits k) →
        (s.fireRecord due = none →
          let u := p.held.foldl (fun u k => State.offer .playback (.release k 64) u) s
          let t := run s
          t = State.raise .playHalt { u with player := t.player, voice := t.voice, pedals := t.pedals }
          ∧ t.player = { p with
              state := .haltedBadEvent, held := [], expected := [], tempo := none, countdown := 0, gap := 0 }
          ∧ t.voice = { s.voice with playbackRequests := s.voice.playbackRequests
              ++ (p.held.map fun k => NoteRequest.release k 64) }
          ∧ t.pedals.playback = ⟨0, false, 0, 0⟩ ∧ t.pedals.live = s.pedals.live)
        ∧ ∀ f, s.fireRecord due = some f → p.slot + 1 < seg.start + seg.count →
          let time := (passageAt p.passage (p.slot + 1)).delta.toNat + f.player.gap
          run s = run { f with player := { f.player with slot := p.slot + 1, countdown := time, gap := 0 } })

/-- A firing run (of a playback tick, of PLAY START or of a wait's end, PlaybackTicksFireOrWait) that fires the last record of a
range, of any kind, to the state f (R161, R162, R165, R166, R172): a new pass, or the load of the next segment or of the one
after a chain of empty segments, each with its MARK, from which the run goes on where no time lies before the first record;
the end of play at END; and the halt at the 32nd empty segment in a row, which from the skip count 0 of a loaded segment is a
chain of 32. A second range that begins without time in one run, after one at zeroBegun, gets a countdown of 1. That the 32nd
empty segment halts the player also where its next is END, although R161 says too that a chain ending at END ends play, is the
model's choice (notes/assumptions/31.md). -/
def Obligations.RangesEndAndSegmentsLoad : Prop :=
  ∀ (s f : State) (zeroBegun : Bool) (n : Fin 32) (seg : Segment), s.player.rangesOk → s.player.state = .running →
    s.player.copy = some (n, seg) → s.player.countdown = 0 → s.player.slot + 1 = seg.start + seg.count →
    let p := s.player
    let due := passageAt p.passage p.slot
    let sounds := fun k : Key => match seg.hands with
      | .both => true
      | .left => decide (k < p.split)
      | .right => decide (p.split ≤ k)
      | .none => false
    (∀ k : Key, ¬ (seg.wait = true ∧ due.kind = 1 ∧ due.key.toNat = k.val ∧ sounds k = false
      ∧ ∀ through, p.satisfied = some through → through < p.slot)) →
    s.fireRecord due = some f →
    let run := State.firingRun runFuel
    let time := fun g : Segment => (passageAt p.passage g.start).delta.toNat + f.player.gap
    let begins := fun (number : Fin 32) (g : Segment) (q : Player) =>
      let countdown := if zeroBegun = true ∧ time g = 0 then 1 else time g
      run zeroBegun s = run (zeroBegun || decide (time g = 0))
        (State.offerMark (BitVec.ofNat 8 number.val) (BitVec.ofNat 8 q.pass)
          { f with player := { q with slot := g.start, satisfied := none, countdown := countdown, gap := 0 } })
    let loads := fun j : Fin 32 => let g := p.segments[j]
      begins j g { f.player with
        copy := some (j, g), next := g.next, repsLeft := if g.repeats = 0 then .endless else .left g.repeats
        pass := 1, skips := 0 }
    let closes := fun (notice : Notice) (st : PlayerState) (skips : Nat) (next : Option (Fin 32)) =>
      let u := f.player.held.foldl (fun u k => State.offer .playback (.release k 64) u) f
      let t := run zeroBegun s
      t = State.raise notice { u with player := t.player, voice := t.voice, pedals := t.pedals }
      ∧ t.player = { f.player with
          state := st, repsLeft := .left 0, skips := skips, next := next, held := [], expected := [], tempo := none
          countdown := 0, gap := 0 }
      ∧ t.voice = { f.voice with playbackRequests := f.voice.playbackRequests
          ++ (f.player.held.map fun k => NoteRequest.release k 64) }
      ∧ t.pedals.playback = ⟨0, false, 0, 0⟩ ∧ t.pedals.live = s.pedals.live
    (p.repsLeft = .endless → begins n seg { f.player with pass := min 255 (p.pass + 1) })
    ∧ (∀ m, p.repsLeft = .left m → 2 ≤ m →
      begins n seg { f.player with repsLeft := .left (m - 1), pass := min 255 (p.pass + 1) })
    ∧ ∀ m, p.repsLeft = .left m → m ≤ 1 →
      (p.next = none → closes .playEnd .idle p.skips none)
      ∧ ∀ j, p.next = some j →
        (p.segments[j].count ≠ 0 → loads j)
        ∧ ∀ (chain : Nat → Fin 32) (more : Nat), chain 0 = j → (∀ i ≤ more, p.segments[chain i].count = 0) →
          (∀ i < more, p.segments[chain i].next = some (chain (i + 1))) →
          let last := p.segments[chain more].next
          (p.skips + more = 31 → closes .playHalt .haltedChainEmpty 32 last)
          ∧ (p.skips + more < 31 → (last = none → closes .playEnd .idle (p.skips + more + 1) none)
            ∧ ∀ i, last = some i → p.segments[i].count ≠ 0 → loads i)

/-- A live STRIKE at the player (R168), which every live STRIKE reaches (R16): ignored but in WAITING; a wrong key is counted,
an expected key leaves the set, and the last one resumes play at once, with a fresh period (R158) and a firing run
(PlaybackTicksFireOrWait), in which the due record fires without sound and then every record that follows without time. A live
RELEASE does not reach it. R16 leaves the order open in which the recorder and the player take a live
STRIKE: that the recorder is offered it before the player matches it is the model's reading (notes/assumptions/18.md). -/
def Obligations.LiveStrikesAreMatched : Prop :=
  ∀ (s : State) (k : Key),
    (s.player.state ≠ .waiting → s.matchStrike k = s)
    ∧ (s.player.state = .waiting → k ∉ s.player.expected → s.player.wrong ≤ 65535 →
      s.matchStrike k = { s with player := { s.player with wrong := min 65535 (s.player.wrong + 1) } })
    ∧ (s.player.state = .waiting → k ∈ s.player.expected → (∃ j ∈ s.player.expected, j ≠ k) →
      s.matchStrike k = { s with player := { s.player with expected := s.player.expected.filter fun j => decide (j ≠ k) } })
    ∧ (∀ (n : Fin 32) (seg : Segment), s.player.state = .waiting → k ∈ s.player.expected → (∀ i ∈ s.player.expected, i = k) →
      s.player.copy = some (n, seg) →
      let p := s.player
      let resumed := { s with player := { p with
        state := .running, expected := [], tempo := some (100000 / max 25 (min 200 (seg.tempo * p.masterTempo / 100))) } }
      s.matchStrike k = State.firingRun runFuel false resumed
      ∧ ∀ (through : Nat) (j : Key), p.countdown = 0 → p.satisfied = some through → p.slot ≤ through →
        p.slot + 1 < seg.start + seg.count →
        let due := passageAt p.passage p.slot
        let after := (passageAt p.passage (p.slot + 1)).delta.toNat + p.gap
        let fired := { resumed with player := { resumed.player with slot := p.slot + 1, countdown := after, gap := 0 } }
        due.kind = 1 → due.key.toNat = j.val →
        (match seg.hands with | .both => true | .left => decide (j < p.split) | .right => decide (p.split ≤ j) | .none => false)
          = false →
        (after ≠ 0 → s.matchStrike k = fired) ∧ (p.rangesOk → s.matchStrike k = State.firingRun runFuel false fired))
    ∧ (∀ level, s.emitLive (.strike k level) = State.matchStrike k (State.offer .live (.strike k level)
        { s with voice := { s.voice with liveRequests := s.voice.liveRequests ++ [.strike k level] } }))
    ∧ ∀ level, (s.emitLive (.release k level)).player = s.player

/-- Every step keeps the invariant of the Control Link (R177, R179, R180, R182). -/
def Obligations.EveryStepKeepsTheLink : Prop := ∀ s t : State, s.link.ok → step s = .next t → t.link.ok

/-- Every step keeps the invariant of the Rail Controller (R55, R56, R58, R66 to R68). -/
def Obligations.EveryStepKeepsTheRail : Prop := ∀ s t : State, s.railOk → step s = .next t → t.railOk

/-- Every step keeps the invariant of the Action Scanner (R6, R7, R17, R18). -/
def Obligations.EveryStepKeepsTheScanner : Prop := ∀ s t : State, s.scanner.ok → step s = .next t → t.scanner.ok

/-- Every step keeps the invariant of the Performance Recorder (R136, R142). -/
def Obligations.EveryStepKeepsTheRecorder : Prop := ∀ s t : State, s.recorder.ok → step s = .next t → t.recorder.ok

/-- Every step keeps the invariant of the Practice Player (R151, R154, R158, R166, R167), the ascending order of its key sets among
it: the RELEASEs of the playback clearing, which go out in the held-key set's own order (PlayStartsAndStops), thus go out in
ascending key order (R166). -/
def Obligations.EveryStepKeepsThePlayer : Prop := ∀ s t : State, s.player.ok → step s = .next t → t.player.ok

/-- The five invariants hold after a part reset. -/
def Obligations.ResetMeetsEveryInvariant : Prop :=
  State.reset.link.ok ∧ State.reset.railOk ∧ State.reset.scanner.ok ∧ State.reset.recorder.ok ∧ State.reset.player.ok
end

