-- ==== Sys2Proof/Laws/State.lean ====
section
/-! SUPPORT. The small lemmas of State's updates: what each block update leaves in each field. -/

namespace Sys2Proof.Machine

@[simp] theorem State.onScanner_inReset (f : Scanner → Scanner) (s : State) : (s.onScanner f).inReset = s.inReset := rfl
@[simp] theorem State.onScanner_actionClock (f : Scanner → Scanner) (s : State) : (s.onScanner f).actionClock = s.actionClock := rfl
@[simp] theorem State.onScanner_perfClock (f : Scanner → Scanner) (s : State) : (s.onScanner f).perfClock = s.perfClock := rfl
@[simp] theorem State.onScanner_draws (f : Scanner → Scanner) (s : State) : (s.onScanner f).draws = s.draws := rfl
@[simp] theorem State.onScanner_scanner (f : Scanner → Scanner) (s : State) : (s.onScanner f).scanner = f s.scanner := rfl
@[simp] theorem State.onScanner_touch (f : Scanner → Scanner) (s : State) : (s.onScanner f).touch = s.touch := rfl
@[simp] theorem State.onScanner_pedals (f : Scanner → Scanner) (s : State) : (s.onScanner f).pedals = s.pedals := rfl
@[simp] theorem State.onScanner_rail (f : Scanner → Scanner) (s : State) : (s.onScanner f).rail = s.rail := rfl
@[simp] theorem State.onScanner_voice (f : Scanner → Scanner) (s : State) : (s.onScanner f).voice = s.voice := rfl
@[simp] theorem State.onScanner_wave (f : Scanner → Scanner) (s : State) : (s.onScanner f).wave = s.wave := rfl
@[simp] theorem State.onScanner_audio (f : Scanner → Scanner) (s : State) : (s.onScanner f).audio = s.audio := rfl
@[simp] theorem State.onScanner_recorder (f : Scanner → Scanner) (s : State) : (s.onScanner f).recorder = s.recorder := rfl
@[simp] theorem State.onScanner_player (f : Scanner → Scanner) (s : State) : (s.onScanner f).player = s.player := rfl
@[simp] theorem State.onScanner_link (f : Scanner → Scanner) (s : State) : (s.onScanner f).link = s.link := rfl
@[simp] theorem State.onScanner_pending (f : Scanner → Scanner) (s : State) : (s.onScanner f).pending = s.pending := rfl

@[simp] theorem State.onTouch_inReset (f : TouchUnit → TouchUnit) (s : State) : (s.onTouch f).inReset = s.inReset := rfl
@[simp] theorem State.onTouch_actionClock (f : TouchUnit → TouchUnit) (s : State) : (s.onTouch f).actionClock = s.actionClock := rfl
@[simp] theorem State.onTouch_perfClock (f : TouchUnit → TouchUnit) (s : State) : (s.onTouch f).perfClock = s.perfClock := rfl
@[simp] theorem State.onTouch_draws (f : TouchUnit → TouchUnit) (s : State) : (s.onTouch f).draws = s.draws := rfl
@[simp] theorem State.onTouch_scanner (f : TouchUnit → TouchUnit) (s : State) : (s.onTouch f).scanner = s.scanner := rfl
@[simp] theorem State.onTouch_touch (f : TouchUnit → TouchUnit) (s : State) : (s.onTouch f).touch = f s.touch := rfl
@[simp] theorem State.onTouch_pedals (f : TouchUnit → TouchUnit) (s : State) : (s.onTouch f).pedals = s.pedals := rfl
@[simp] theorem State.onTouch_rail (f : TouchUnit → TouchUnit) (s : State) : (s.onTouch f).rail = s.rail := rfl
@[simp] theorem State.onTouch_voice (f : TouchUnit → TouchUnit) (s : State) : (s.onTouch f).voice = s.voice := rfl
@[simp] theorem State.onTouch_wave (f : TouchUnit → TouchUnit) (s : State) : (s.onTouch f).wave = s.wave := rfl
@[simp] theorem State.onTouch_audio (f : TouchUnit → TouchUnit) (s : State) : (s.onTouch f).audio = s.audio := rfl
@[simp] theorem State.onTouch_recorder (f : TouchUnit → TouchUnit) (s : State) : (s.onTouch f).recorder = s.recorder := rfl
@[simp] theorem State.onTouch_player (f : TouchUnit → TouchUnit) (s : State) : (s.onTouch f).player = s.player := rfl
@[simp] theorem State.onTouch_link (f : TouchUnit → TouchUnit) (s : State) : (s.onTouch f).link = s.link := rfl
@[simp] theorem State.onTouch_pending (f : TouchUnit → TouchUnit) (s : State) : (s.onTouch f).pending = s.pending := rfl

@[simp] theorem State.onPedals_inReset (f : PedalUnit → PedalUnit) (s : State) : (s.onPedals f).inReset = s.inReset := rfl
@[simp] theorem State.onPedals_actionClock (f : PedalUnit → PedalUnit) (s : State) : (s.onPedals f).actionClock = s.actionClock := rfl
@[simp] theorem State.onPedals_perfClock (f : PedalUnit → PedalUnit) (s : State) : (s.onPedals f).perfClock = s.perfClock := rfl
@[simp] theorem State.onPedals_draws (f : PedalUnit → PedalUnit) (s : State) : (s.onPedals f).draws = s.draws := rfl
@[simp] theorem State.onPedals_scanner (f : PedalUnit → PedalUnit) (s : State) : (s.onPedals f).scanner = s.scanner := rfl
@[simp] theorem State.onPedals_touch (f : PedalUnit → PedalUnit) (s : State) : (s.onPedals f).touch = s.touch := rfl
@[simp] theorem State.onPedals_pedals (f : PedalUnit → PedalUnit) (s : State) : (s.onPedals f).pedals = f s.pedals := rfl
@[simp] theorem State.onPedals_rail (f : PedalUnit → PedalUnit) (s : State) : (s.onPedals f).rail = s.rail := rfl
@[simp] theorem State.onPedals_voice (f : PedalUnit → PedalUnit) (s : State) : (s.onPedals f).voice = s.voice := rfl
@[simp] theorem State.onPedals_wave (f : PedalUnit → PedalUnit) (s : State) : (s.onPedals f).wave = s.wave := rfl
@[simp] theorem State.onPedals_audio (f : PedalUnit → PedalUnit) (s : State) : (s.onPedals f).audio = s.audio := rfl
@[simp] theorem State.onPedals_recorder (f : PedalUnit → PedalUnit) (s : State) : (s.onPedals f).recorder = s.recorder := rfl
@[simp] theorem State.onPedals_player (f : PedalUnit → PedalUnit) (s : State) : (s.onPedals f).player = s.player := rfl
@[simp] theorem State.onPedals_link (f : PedalUnit → PedalUnit) (s : State) : (s.onPedals f).link = s.link := rfl
@[simp] theorem State.onPedals_pending (f : PedalUnit → PedalUnit) (s : State) : (s.onPedals f).pending = s.pending := rfl

@[simp] theorem State.onRail_inReset (f : Rail → Rail) (s : State) : (s.onRail f).inReset = s.inReset := rfl
@[simp] theorem State.onRail_actionClock (f : Rail → Rail) (s : State) : (s.onRail f).actionClock = s.actionClock := rfl
@[simp] theorem State.onRail_perfClock (f : Rail → Rail) (s : State) : (s.onRail f).perfClock = s.perfClock := rfl
@[simp] theorem State.onRail_draws (f : Rail → Rail) (s : State) : (s.onRail f).draws = s.draws := rfl
@[simp] theorem State.onRail_scanner (f : Rail → Rail) (s : State) : (s.onRail f).scanner = s.scanner := rfl
@[simp] theorem State.onRail_touch (f : Rail → Rail) (s : State) : (s.onRail f).touch = s.touch := rfl
@[simp] theorem State.onRail_pedals (f : Rail → Rail) (s : State) : (s.onRail f).pedals = s.pedals := rfl
@[simp] theorem State.onRail_rail (f : Rail → Rail) (s : State) : (s.onRail f).rail = f s.rail := rfl
@[simp] theorem State.onRail_voice (f : Rail → Rail) (s : State) : (s.onRail f).voice = s.voice := rfl
@[simp] theorem State.onRail_wave (f : Rail → Rail) (s : State) : (s.onRail f).wave = s.wave := rfl
@[simp] theorem State.onRail_audio (f : Rail → Rail) (s : State) : (s.onRail f).audio = s.audio := rfl
@[simp] theorem State.onRail_recorder (f : Rail → Rail) (s : State) : (s.onRail f).recorder = s.recorder := rfl
@[simp] theorem State.onRail_player (f : Rail → Rail) (s : State) : (s.onRail f).player = s.player := rfl
@[simp] theorem State.onRail_link (f : Rail → Rail) (s : State) : (s.onRail f).link = s.link := rfl
@[simp] theorem State.onRail_pending (f : Rail → Rail) (s : State) : (s.onRail f).pending = s.pending := rfl

@[simp] theorem State.onVoice_inReset (f : VoiceEngine → VoiceEngine) (s : State) : (s.onVoice f).inReset = s.inReset := rfl
@[simp] theorem State.onVoice_actionClock (f : VoiceEngine → VoiceEngine) (s : State) : (s.onVoice f).actionClock = s.actionClock := rfl
@[simp] theorem State.onVoice_perfClock (f : VoiceEngine → VoiceEngine) (s : State) : (s.onVoice f).perfClock = s.perfClock := rfl
@[simp] theorem State.onVoice_draws (f : VoiceEngine → VoiceEngine) (s : State) : (s.onVoice f).draws = s.draws := rfl
@[simp] theorem State.onVoice_scanner (f : VoiceEngine → VoiceEngine) (s : State) : (s.onVoice f).scanner = s.scanner := rfl
@[simp] theorem State.onVoice_touch (f : VoiceEngine → VoiceEngine) (s : State) : (s.onVoice f).touch = s.touch := rfl
@[simp] theorem State.onVoice_pedals (f : VoiceEngine → VoiceEngine) (s : State) : (s.onVoice f).pedals = s.pedals := rfl
@[simp] theorem State.onVoice_rail (f : VoiceEngine → VoiceEngine) (s : State) : (s.onVoice f).rail = s.rail := rfl
@[simp] theorem State.onVoice_voice (f : VoiceEngine → VoiceEngine) (s : State) : (s.onVoice f).voice = f s.voice := rfl
@[simp] theorem State.onVoice_wave (f : VoiceEngine → VoiceEngine) (s : State) : (s.onVoice f).wave = s.wave := rfl
@[simp] theorem State.onVoice_audio (f : VoiceEngine → VoiceEngine) (s : State) : (s.onVoice f).audio = s.audio := rfl
@[simp] theorem State.onVoice_recorder (f : VoiceEngine → VoiceEngine) (s : State) : (s.onVoice f).recorder = s.recorder := rfl
@[simp] theorem State.onVoice_player (f : VoiceEngine → VoiceEngine) (s : State) : (s.onVoice f).player = s.player := rfl
@[simp] theorem State.onVoice_link (f : VoiceEngine → VoiceEngine) (s : State) : (s.onVoice f).link = s.link := rfl
@[simp] theorem State.onVoice_pending (f : VoiceEngine → VoiceEngine) (s : State) : (s.onVoice f).pending = s.pending := rfl

@[simp] theorem State.onWave_inReset (f : WaveUnit → WaveUnit) (s : State) : (s.onWave f).inReset = s.inReset := rfl
@[simp] theorem State.onWave_actionClock (f : WaveUnit → WaveUnit) (s : State) : (s.onWave f).actionClock = s.actionClock := rfl
@[simp] theorem State.onWave_perfClock (f : WaveUnit → WaveUnit) (s : State) : (s.onWave f).perfClock = s.perfClock := rfl
@[simp] theorem State.onWave_draws (f : WaveUnit → WaveUnit) (s : State) : (s.onWave f).draws = s.draws := rfl
@[simp] theorem State.onWave_scanner (f : WaveUnit → WaveUnit) (s : State) : (s.onWave f).scanner = s.scanner := rfl
@[simp] theorem State.onWave_touch (f : WaveUnit → WaveUnit) (s : State) : (s.onWave f).touch = s.touch := rfl
@[simp] theorem State.onWave_pedals (f : WaveUnit → WaveUnit) (s : State) : (s.onWave f).pedals = s.pedals := rfl
@[simp] theorem State.onWave_rail (f : WaveUnit → WaveUnit) (s : State) : (s.onWave f).rail = s.rail := rfl
@[simp] theorem State.onWave_voice (f : WaveUnit → WaveUnit) (s : State) : (s.onWave f).voice = s.voice := rfl
@[simp] theorem State.onWave_wave (f : WaveUnit → WaveUnit) (s : State) : (s.onWave f).wave = f s.wave := rfl
@[simp] theorem State.onWave_audio (f : WaveUnit → WaveUnit) (s : State) : (s.onWave f).audio = s.audio := rfl
@[simp] theorem State.onWave_recorder (f : WaveUnit → WaveUnit) (s : State) : (s.onWave f).recorder = s.recorder := rfl
@[simp] theorem State.onWave_player (f : WaveUnit → WaveUnit) (s : State) : (s.onWave f).player = s.player := rfl
@[simp] theorem State.onWave_link (f : WaveUnit → WaveUnit) (s : State) : (s.onWave f).link = s.link := rfl
@[simp] theorem State.onWave_pending (f : WaveUnit → WaveUnit) (s : State) : (s.onWave f).pending = s.pending := rfl

@[simp] theorem State.onAudio_inReset (f : AudioPort → AudioPort) (s : State) : (s.onAudio f).inReset = s.inReset := rfl
@[simp] theorem State.onAudio_actionClock (f : AudioPort → AudioPort) (s : State) : (s.onAudio f).actionClock = s.actionClock := rfl
@[simp] theorem State.onAudio_perfClock (f : AudioPort → AudioPort) (s : State) : (s.onAudio f).perfClock = s.perfClock := rfl
@[simp] theorem State.onAudio_draws (f : AudioPort → AudioPort) (s : State) : (s.onAudio f).draws = s.draws := rfl
@[simp] theorem State.onAudio_scanner (f : AudioPort → AudioPort) (s : State) : (s.onAudio f).scanner = s.scanner := rfl
@[simp] theorem State.onAudio_touch (f : AudioPort → AudioPort) (s : State) : (s.onAudio f).touch = s.touch := rfl
@[simp] theorem State.onAudio_pedals (f : AudioPort → AudioPort) (s : State) : (s.onAudio f).pedals = s.pedals := rfl
@[simp] theorem State.onAudio_rail (f : AudioPort → AudioPort) (s : State) : (s.onAudio f).rail = s.rail := rfl
@[simp] theorem State.onAudio_voice (f : AudioPort → AudioPort) (s : State) : (s.onAudio f).voice = s.voice := rfl
@[simp] theorem State.onAudio_wave (f : AudioPort → AudioPort) (s : State) : (s.onAudio f).wave = s.wave := rfl
@[simp] theorem State.onAudio_audio (f : AudioPort → AudioPort) (s : State) : (s.onAudio f).audio = f s.audio := rfl
@[simp] theorem State.onAudio_recorder (f : AudioPort → AudioPort) (s : State) : (s.onAudio f).recorder = s.recorder := rfl
@[simp] theorem State.onAudio_player (f : AudioPort → AudioPort) (s : State) : (s.onAudio f).player = s.player := rfl
@[simp] theorem State.onAudio_link (f : AudioPort → AudioPort) (s : State) : (s.onAudio f).link = s.link := rfl
@[simp] theorem State.onAudio_pending (f : AudioPort → AudioPort) (s : State) : (s.onAudio f).pending = s.pending := rfl

@[simp] theorem State.onRecorder_inReset (f : Recorder → Recorder) (s : State) : (s.onRecorder f).inReset = s.inReset := rfl
@[simp] theorem State.onRecorder_actionClock (f : Recorder → Recorder) (s : State) : (s.onRecorder f).actionClock = s.actionClock := rfl
@[simp] theorem State.onRecorder_perfClock (f : Recorder → Recorder) (s : State) : (s.onRecorder f).perfClock = s.perfClock := rfl
@[simp] theorem State.onRecorder_draws (f : Recorder → Recorder) (s : State) : (s.onRecorder f).draws = s.draws := rfl
@[simp] theorem State.onRecorder_scanner (f : Recorder → Recorder) (s : State) : (s.onRecorder f).scanner = s.scanner := rfl
@[simp] theorem State.onRecorder_touch (f : Recorder → Recorder) (s : State) : (s.onRecorder f).touch = s.touch := rfl
@[simp] theorem State.onRecorder_pedals (f : Recorder → Recorder) (s : State) : (s.onRecorder f).pedals = s.pedals := rfl
@[simp] theorem State.onRecorder_rail (f : Recorder → Recorder) (s : State) : (s.onRecorder f).rail = s.rail := rfl
@[simp] theorem State.onRecorder_voice (f : Recorder → Recorder) (s : State) : (s.onRecorder f).voice = s.voice := rfl
@[simp] theorem State.onRecorder_wave (f : Recorder → Recorder) (s : State) : (s.onRecorder f).wave = s.wave := rfl
@[simp] theorem State.onRecorder_audio (f : Recorder → Recorder) (s : State) : (s.onRecorder f).audio = s.audio := rfl
@[simp] theorem State.onRecorder_recorder (f : Recorder → Recorder) (s : State) : (s.onRecorder f).recorder = f s.recorder := rfl
@[simp] theorem State.onRecorder_player (f : Recorder → Recorder) (s : State) : (s.onRecorder f).player = s.player := rfl
@[simp] theorem State.onRecorder_link (f : Recorder → Recorder) (s : State) : (s.onRecorder f).link = s.link := rfl
@[simp] theorem State.onRecorder_pending (f : Recorder → Recorder) (s : State) : (s.onRecorder f).pending = s.pending := rfl

@[simp] theorem State.onPlayer_inReset (f : Player → Player) (s : State) : (s.onPlayer f).inReset = s.inReset := rfl
@[simp] theorem State.onPlayer_actionClock (f : Player → Player) (s : State) : (s.onPlayer f).actionClock = s.actionClock := rfl
@[simp] theorem State.onPlayer_perfClock (f : Player → Player) (s : State) : (s.onPlayer f).perfClock = s.perfClock := rfl
@[simp] theorem State.onPlayer_draws (f : Player → Player) (s : State) : (s.onPlayer f).draws = s.draws := rfl
@[simp] theorem State.onPlayer_scanner (f : Player → Player) (s : State) : (s.onPlayer f).scanner = s.scanner := rfl
@[simp] theorem State.onPlayer_touch (f : Player → Player) (s : State) : (s.onPlayer f).touch = s.touch := rfl
@[simp] theorem State.onPlayer_pedals (f : Player → Player) (s : State) : (s.onPlayer f).pedals = s.pedals := rfl
@[simp] theorem State.onPlayer_rail (f : Player → Player) (s : State) : (s.onPlayer f).rail = s.rail := rfl
@[simp] theorem State.onPlayer_voice (f : Player → Player) (s : State) : (s.onPlayer f).voice = s.voice := rfl
@[simp] theorem State.onPlayer_wave (f : Player → Player) (s : State) : (s.onPlayer f).wave = s.wave := rfl
@[simp] theorem State.onPlayer_audio (f : Player → Player) (s : State) : (s.onPlayer f).audio = s.audio := rfl
@[simp] theorem State.onPlayer_recorder (f : Player → Player) (s : State) : (s.onPlayer f).recorder = s.recorder := rfl
@[simp] theorem State.onPlayer_player (f : Player → Player) (s : State) : (s.onPlayer f).player = f s.player := rfl
@[simp] theorem State.onPlayer_link (f : Player → Player) (s : State) : (s.onPlayer f).link = s.link := rfl
@[simp] theorem State.onPlayer_pending (f : Player → Player) (s : State) : (s.onPlayer f).pending = s.pending := rfl

@[simp] theorem State.onLink_inReset (f : Link → Link) (s : State) : (s.onLink f).inReset = s.inReset := rfl
@[simp] theorem State.onLink_actionClock (f : Link → Link) (s : State) : (s.onLink f).actionClock = s.actionClock := rfl
@[simp] theorem State.onLink_perfClock (f : Link → Link) (s : State) : (s.onLink f).perfClock = s.perfClock := rfl
@[simp] theorem State.onLink_draws (f : Link → Link) (s : State) : (s.onLink f).draws = s.draws := rfl
@[simp] theorem State.onLink_scanner (f : Link → Link) (s : State) : (s.onLink f).scanner = s.scanner := rfl
@[simp] theorem State.onLink_touch (f : Link → Link) (s : State) : (s.onLink f).touch = s.touch := rfl
@[simp] theorem State.onLink_pedals (f : Link → Link) (s : State) : (s.onLink f).pedals = s.pedals := rfl
@[simp] theorem State.onLink_rail (f : Link → Link) (s : State) : (s.onLink f).rail = s.rail := rfl
@[simp] theorem State.onLink_voice (f : Link → Link) (s : State) : (s.onLink f).voice = s.voice := rfl
@[simp] theorem State.onLink_wave (f : Link → Link) (s : State) : (s.onLink f).wave = s.wave := rfl
@[simp] theorem State.onLink_audio (f : Link → Link) (s : State) : (s.onLink f).audio = s.audio := rfl
@[simp] theorem State.onLink_recorder (f : Link → Link) (s : State) : (s.onLink f).recorder = s.recorder := rfl
@[simp] theorem State.onLink_player (f : Link → Link) (s : State) : (s.onLink f).player = s.player := rfl
@[simp] theorem State.onLink_link (f : Link → Link) (s : State) : (s.onLink f).link = f s.link := rfl
@[simp] theorem State.onLink_pending (f : Link → Link) (s : State) : (s.onLink f).pending = s.pending := rfl

@[simp] theorem mapTable_getElem {α β : Type} {n : Nat} (f : α → β) (t : Vector α n) (i : Nat) (h : i < n) :
    (mapTable f t)[i] = f t[i] := by simp [mapTable]

@[simp] theorem mapTableIx_getElem {α β : Type} {n : Nat} (f : Fin n → α → β) (t : Vector α n) (i : Nat) (h : i < n) :
    (mapTableIx f t)[i] = f ⟨i, h⟩ t[i] := by simp [mapTableIx]

theorem updateAt_getElem {α : Type} {n : Nat} (k : Fin n) (f : α → α) (t : Vector α n) (i : Nat) (h : i < n) :
    (updateAt k f t)[i] = if k.val = i then f t[k] else t[i] := by
  simp [updateAt, Vector.getElem_set]

theorem mem_insertKey {k j : Key} {set : List Key} : j ∈ insertKey k set ↔ j = k ∨ j ∈ set := by
  induction set with
  | nil => simp [insertKey]
  | cons i rest ih =>
    simp only [insertKey]
    split
    · simp
    · split
      · next h => subst h; simp
      · simp [ih]; tauto

@[simp] theorem mem_removeKey {k j : Key} {set : List Key} : j ∈ removeKey k set ↔ j ∈ set ∧ j ≠ k := by
  simp [removeKey]

theorem bump_le {c : Nat} (h : c ≤ Config.counterMax) : bump c ≤ Config.counterMax := by
  simp only [bump]; split <;> omega

theorem saturate_bounds (n : Int) : -Config.fullScale ≤ saturate n ∧ saturate n ≤ Config.fullScale := by
  simp only [saturate, clampInt, Config.fullScale]; omega

theorem clamp_bounds {lo hi n : Nat} (h : lo ≤ hi) : lo ≤ clamp lo hi n ∧ clamp lo hi n ≤ hi := by
  simp only [clamp]; omega

end Sys2Proof.Machine
end

