-- ==== Sys2Proof/Laws/Frames.lean ====
section
/-! SUPPORT. Frames: for each shared operation, which parts of State it can change. A relation per group of operations says all it can change; it is reflexive and transitive, so the frame of a sequence follows from its parts. -/

namespace Sys2Proof.Machine

/-! ### Notices and the operation slot -/

/-- Nothing but the pending notices and the operation slot changes. -/
def LinkWork (s t : State) : Prop :=
  ∃ n slot, t = { s with link := { s.link with pendingSet := n, slot := slot } }

theorem LinkWork.refl (s : State) : LinkWork s s := ⟨s.link.pendingSet, s.link.slot, rfl⟩

theorem LinkWork.trans {s t u : State} (h : LinkWork s t) (g : LinkWork t u) : LinkWork s u := by
  obtain ⟨n, sl, rfl⟩ := h
  obtain ⟨n', sl', rfl⟩ := g
  exact ⟨n', sl', rfl⟩

theorem State.raise_frame (n : Notice) (s : State) : LinkWork s (s.raise n) := ⟨_, s.link.slot, rfl⟩

theorem State.raiseIf_frame (b : Bool) (n : Notice) (s : State) : LinkWork s (s.raiseIf b n) := by
  cases b
  · exact LinkWork.refl s
  · exact s.raise_frame n

theorem State.endOperation_frame (o : OpOutcome) (d : Details) (s : State) : LinkWork s (s.endOperation o d) := by
  unfold State.endOperation
  split
  · exact ⟨_, _, rfl⟩
  · exact LinkWork.refl s

/-! ### The recorder's offers and the pedals -/

/-- What the recorder's offers, the pedals and the player change: the player but for its passage store, its segment table,
its split key and its master tempo; the pedals; the recorder; the playback requests; the pending notices; the draws. -/
def PlayWork (s t : State) : Prop :=
  ∃ p d r v n k, t = { s with
      player := p, pedals := d, recorder := r, voice := { s.voice with playbackRequests := v }
      link := { s.link with pendingSet := n }, draws := k }
    ∧ p.passage = s.player.passage ∧ p.segments = s.player.segments ∧ p.split = s.player.split
    ∧ p.masterTempo = s.player.masterTempo

theorem PlayWork.refl (s : State) : PlayWork s s :=
  ⟨s.player, s.pedals, s.recorder, s.voice.playbackRequests, s.link.pendingSet, s.draws, rfl, rfl, rfl, rfl, rfl⟩

theorem PlayWork.trans {s t u : State} (h : PlayWork s t) (g : PlayWork t u) : PlayWork s u := by
  obtain ⟨p, d, r, v, n, k, rfl, h1, h2, h3, h4⟩ := h
  obtain ⟨p', d', r', v', n', k', rfl, g1, g2, g3, g4⟩ := g
  exact ⟨p', d', r', v', n', k', rfl, g1.trans h1, g2.trans h2, g3.trans h3, g4.trans h4⟩

theorem State.raise_play (n : Notice) (s : State) : PlayWork s (s.raise n) :=
  ⟨s.player, s.pedals, s.recorder, s.voice.playbackRequests, _, s.draws, rfl, rfl, rfl, rfl, rfl⟩

theorem State.raiseIf_play (b : Bool) (n : Notice) (s : State) : PlayWork s (s.raiseIf b n) := by
  cases b
  · exact PlayWork.refl s
  · exact s.raise_play n

theorem State.onRecorder_work (f : Recorder → Recorder) (s : State) : PlayWork s (s.onRecorder f) :=
  ⟨s.player, s.pedals, _, s.voice.playbackRequests, s.link.pendingSet, s.draws, rfl, rfl, rfl, rfl, rfl⟩

theorem State.onPedals_work (f : PedalUnit → PedalUnit) (s : State) : PlayWork s (s.onPedals f) :=
  ⟨s.player, _, s.recorder, s.voice.playbackRequests, s.link.pendingSet, s.draws, rfl, rfl, rfl, rfl, rfl⟩

/-- A change of the player that keeps the four things the host alone writes. -/
theorem State.onPlayer_work (f : Player → Player) (s : State) (h1 : (f s.player).passage = s.player.passage)
    (h2 : (f s.player).segments = s.player.segments) (h3 : (f s.player).split = s.player.split)
    (h4 : (f s.player).masterTempo = s.player.masterTempo) : PlayWork s (s.onPlayer f) :=
  ⟨_, s.pedals, s.recorder, s.voice.playbackRequests, s.link.pendingSet, s.draws, rfl, h1, h2, h3, h4⟩

/-- What an offer changes: the recorder, and the pending notices by RECORD_LOST. -/
theorem State.offer_frame (source : Source) (e : RecorderEvent) (s : State) :
    ∃ r n, s.offer source e = { s with recorder := r, link := { s.link with pendingSet := n } } := by
  unfold State.offer
  split
  · cases h : (s.recorder.take s.perfClock e).2 <;> simp only [h, State.raiseIf]
    · exact ⟨_, s.link.pendingSet, rfl⟩
    · exact ⟨_, _, rfl⟩
  · exact ⟨s.recorder, s.link.pendingSet, rfl⟩

theorem State.offerMark_frame (segment pass : Byte) (s : State) :
    ∃ r n, s.offerMark segment pass = { s with recorder := r, link := { s.link with pendingSet := n } } := by
  unfold State.offerMark
  split
  · cases h : (s.recorder.take s.perfClock (.mark segment pass)).2 <;> simp only [h, State.raiseIf]
    · exact ⟨_, s.link.pendingSet, rfl⟩
    · exact ⟨_, _, rfl⟩
  · exact ⟨s.recorder, s.link.pendingSet, rfl⟩

theorem State.offer_play (source : Source) (e : RecorderEvent) (s : State) : PlayWork s (s.offer source e) := by
  obtain ⟨r, n, h⟩ := s.offer_frame source e
  rw [h]
  exact ⟨s.player, s.pedals, r, s.voice.playbackRequests, n, s.draws, rfl, rfl, rfl, rfl, rfl⟩

theorem State.offerMark_play (segment pass : Byte) (s : State) : PlayWork s (s.offerMark segment pass) := by
  obtain ⟨r, n, h⟩ := s.offerMark_frame segment pass
  rw [h]
  exact ⟨s.player, s.pedals, r, s.voice.playbackRequests, n, s.draws, rfl, rfl, rfl, rfl, rfl⟩

theorem State.mergePedals_play (s : State) : PlayWork s s.mergePedals := s.onPedals_work _

theorem State.writePlayback_play (p : Pedal) (v : Nat) (s : State) : PlayWork s (s.writePlayback p v) :=
  (s.onPedals_work _).trans (State.mergePedals_play _)

theorem State.clearPlaybackPedals_play (s : State) : PlayWork s s.clearPlaybackPedals :=
  (s.onPedals_work _).trans (State.mergePedals_play _)

theorem State.offerDamper_play (s : State) : PlayWork s s.offerDamper := by
  simp only [State.offerDamper]
  split
  · exact (s.offer_play _ _).trans (State.onPedals_work _ _)
  · exact PlayWork.refl s

theorem State.offerSostenuto_play (s : State) : PlayWork s s.offerSostenuto := by
  simp only [State.offerSostenuto]
  split
  · exact (s.offer_play _ _).trans (State.onPedals_work _ _)
  · exact PlayWork.refl s

theorem State.offerUnaCorda_play (s : State) : PlayWork s s.offerUnaCorda := by
  simp only [State.offerUnaCorda]
  split
  · exact (s.offer_play _ _).trans (State.onPedals_work _ _)
  · exact PlayWork.refl s

theorem State.offerOpening_play (s : State) : PlayWork s s.offerOpening := by
  simp only [State.offerOpening]
  exact ((s.offer_play _ _).trans (State.offer_play _ _ _)).trans
    ((State.offer_play _ _ _).trans (State.onPedals_work _ _))

/-! ### The player's work -/

theorem State.reloadTempo_play (s : State) : PlayWork s s.reloadTempo := by
  unfold State.reloadTempo
  split
  · exact State.onPlayer_work _ s rfl rfl rfl rfl
  · exact ⟨_, s.pedals, s.recorder, s.voice.playbackRequests, s.link.pendingSet, _, rfl, rfl, rfl, rfl, rfl⟩

theorem State.handPlayback_play (n : NoteRequest) (s : State) : PlayWork s (s.handPlayback n) := by
  have h : PlayWork s (s.onVoice fun v => { v with playbackRequests := v.playbackRequests ++ [n] }) :=
    ⟨s.player, s.pedals, s.recorder, _, s.link.pendingSet, s.draws, rfl, rfl, rfl, rfl, rfl⟩
  exact h.trans (State.offer_play _ _ _)

theorem State.foldl_play {α : Type} (f : State → α → State) (h : ∀ s a, PlayWork s (f s a)) (l : List α) (s : State) :
    PlayWork s (l.foldl f s) := by
  induction l generalizing s with
  | nil => exact PlayWork.refl s
  | cons a l ih => exact (h s a).trans (ih (f s a))

theorem State.playbackClearing_play (s : State) : PlayWork s s.playbackClearing :=
  ((State.foldl_play _ (fun s k => State.handPlayback_play (.release k 64) s) s.player.held s).trans
    (State.onPlayer_work _ _ rfl rfl rfl rfl)).trans (State.clearPlaybackPedals_play _)

theorem State.playEnds_play (s : State) : PlayWork s s.playEnds :=
  (s.playbackClearing_play.trans (State.raise_play _ _)).trans (State.onPlayer_work _ _ rfl rfl rfl rfl)

theorem State.playerHalts_play (h : PlayerState) (s : State) : PlayWork s (s.playerHalts h) :=
  (s.playbackClearing_play.trans (State.raise_play _ _)).trans (State.onPlayer_work _ _ rfl rfl rfl rfl)

theorem State.beginRange_play (z : Bool) (s : State) : PlayWork s (s.beginRange z).1 := by
  simp only [State.beginRange]
  exact (State.offerMark_play _ _ s).trans (State.onPlayer_work _ _ rfl rfl rfl rfl)

theorem State.loadSegment_play (z : Bool) (fuel : Nat) (s : State) : PlayWork s (s.loadSegment z fuel).1 := by
  induction fuel generalizing s with
  | zero => exact PlayWork.refl s
  | succ fuel ih =>
    simp only [State.loadSegment]
    split
    · exact s.playEnds_play
    · split
      · split
        · exact (State.onPlayer_work _ s rfl rfl rfl rfl).trans (State.playerHalts_play _ _)
        · exact (State.onPlayer_work _ s rfl rfl rfl rfl).trans (ih _)
      · exact (State.onPlayer_work _ s rfl rfl rfl rfl).trans (State.beginRange_play _ _)

theorem State.endRange_play (z : Bool) (s : State) : PlayWork s (s.endRange z).1 := by
  unfold State.endRange
  split
  · exact (State.onPlayer_work _ s rfl rfl rfl rfl).trans (State.beginRange_play _ _)
  · split
    · exact (State.onPlayer_work _ s rfl rfl rfl rfl).trans (State.beginRange_play _ _)
    · exact (State.onPlayer_work _ s rfl rfl rfl rfl).trans (State.loadSegment_play _ _ _)

theorem State.fireRecord_play (r : Record) (s t : State) (h : s.fireRecord r = some t) : PlayWork s t := by
  unfold State.fireRecord at h
  repeat' split at h
  all_goals cases h
  all_goals first
    | exact PlayWork.refl s
    | exact State.onPlayer_work _ s rfl rfl rfl rfl
    | exact (s.handPlayback_play _).trans (State.onPlayer_work _ _ rfl rfl rfl rfl)
    | exact (s.writePlayback_play _ _).trans (State.offer_play _ _ _)

theorem State.beginWait_play (k : Key) (s : State) : PlayWork s (s.beginWait k) :=
  (State.onPlayer_work _ s rfl rfl rfl rfl).trans (State.raise_play _ _)

theorem State.firingRun_play (fuel : Nat) (z : Bool) (s : State) : PlayWork s (s.firingRun fuel z) := by
  induction fuel generalizing s z with
  | zero => exact PlayWork.refl s
  | succ fuel ih =>
    simp only [State.firingRun]
    split
    · split
      · exact s.beginWait_play _
      · split
        · exact s.playerHalts_play _
        · rename_i t ht
          have hf := State.fireRecord_play _ _ _ ht
          split
          · exact (hf.trans (State.onPlayer_work _ _ rfl rfl rfl rfl)).trans (ih _ _)
          · exact (hf.trans (State.endRange_play _ _)).trans (ih _ _)
    · exact PlayWork.refl s

theorem State.matchStrike_play (k : Key) (s : State) : PlayWork s (s.matchStrike k) := by
  simp only [State.matchStrike]
  split
  · split
    · have h : PlayWork s (s.onPlayer fun p => { p with expected := removeKey k p.expected }) :=
        State.onPlayer_work _ s rfl rfl rfl rfl
      split
      · exact ((h.trans (State.onPlayer_work _ _ rfl rfl rfl rfl)).trans (State.reloadTempo_play _)).trans
          (State.firingRun_play _ _ _)
      · exact h
    · exact State.onPlayer_work _ s rfl rfl rfl rfl
  · exact PlayWork.refl s

theorem State.playbackTick_play (s : State) : PlayWork s s.playbackTick :=
  (s.reloadTempo_play.trans (State.onPlayer_work _ _ rfl rfl rfl rfl)).trans (State.firingRun_play _ _ _)

theorem State.startPlay_play (first : Fin 32) (s : State) : PlayWork s (s.startPlay first) := by
  simp only [State.startPlay]
  exact (((((State.onPlayer_work _ s rfl rfl rfl rfl).trans (State.reloadTempo_play _)).trans
    (State.onPlayer_work _ _ rfl rfl rfl rfl)).trans (State.loadSegment_play _ _ _)).trans (State.firingRun_play _ _ _))

/-! ### The rail's work -/

/-- What the Rail Controller's events change: the rail but for the guard's pin, the operation slot and the pending
notices. -/
def RailWork (s t : State) : Prop :=
  ∃ r n slot, t = { s with rail := r, link := { s.link with pendingSet := n, slot := slot } }
    ∧ r.guardLow = s.rail.guardLow

theorem RailWork.refl (s : State) : RailWork s s := ⟨s.rail, s.link.pendingSet, s.link.slot, rfl, rfl⟩

theorem RailWork.trans {s t u : State} (h : RailWork s t) (g : RailWork t u) : RailWork s u := by
  obtain ⟨r, n, sl, rfl, h1⟩ := h
  obtain ⟨r', n', sl', rfl, g1⟩ := g
  exact ⟨r', n', sl', rfl, g1.trans h1⟩

theorem LinkWork.rail {s t : State} (h : LinkWork s t) : RailWork s t := by
  obtain ⟨n, sl, rfl⟩ := h
  exact ⟨s.rail, n, sl, rfl, rfl⟩

theorem State.onRail_work (f : Rail → Rail) (s : State) (h : (f s.rail).guardLow = s.rail.guardLow) :
    RailWork s (s.onRail f) := ⟨_, s.link.pendingSet, s.link.slot, rfl, h⟩

theorem State.railFaults_rail (reason : FaultReason) (s : State) : RailWork s (s.railFaults reason) := by
  unfold State.railFaults
  split
  · exact RailWork.refl s
  · exact ((State.onRail_work _ s rfl).trans (State.raise_frame _ _).rail).trans (State.endOperation_frame _ _ _).rail
  · exact (State.onRail_work _ s rfl).trans (State.raise_frame _ _).rail

theorem State.quietGrant_rail (s : State) : RailWork s s.quietGrant := by
  unfold State.quietGrant
  repeat' split
  all_goals first
    | exact RailWork.refl s
    | exact State.onRail_work _ s rfl

theorem State.enterHoming_rail (s : State) : RailWork s s.enterHoming := by
  have h : RailWork s (s.onRail fun r => { r.rest (.homing .waiting) with attempts := 0, target := .opened, origin := none }) :=
    State.onRail_work _ s rfl
  simp only [State.enterHoming]
  repeat' split
  · exact h.trans (State.railFaults_rail _ _)
  · exact h.trans (State.railFaults_rail _ _)
  · exact (h.trans (State.onRail_work _ _ rfl)).trans (State.raise_frame _ _).rail
  · exact h.trans (State.quietGrant_rail _)

theorem State.g2Report_rail (s : State) : RailWork s s.g2Report := by
  unfold State.g2Report
  split
  all_goals first
    | exact RailWork.refl s
    | exact State.onRail_work _ s rfl
    | exact (State.onRail_work _ s rfl).trans (State.endOperation_frame _ _ _).rail

theorem State.calibrationCompletes_rail (s : State) : RailWork s s.calibrationCompletes :=
  (State.onRail_work _ s rfl).trans (State.endOperation_frame _ _ _).rail

theorem State.railArrives_rail (e : RailEnd) (s : State) : RailWork s (s.railArrives e) := by
  unfold State.railArrives
  repeat' split
  all_goals first
    | exact RailWork.refl s
    | exact State.railFaults_rail _ s
    | exact State.onRail_work _ s rfl
    | exact s.calibrationCompletes_rail
    | exact (State.onRail_work _ s rfl).trans (State.raise_frame _ _).rail
    | exact (State.onRail_work _ s rfl).trans (State.quietGrant_rail _)

theorem State.railDeparts_rail (e : RailEnd) (s : State) : RailWork s (s.railDeparts e) := by
  unfold State.railDeparts
  split
  · exact State.railFaults_rail _ s
  · exact RailWork.refl s

theorem State.confirmSwitch_rail (e : RailEnd) (s : State) : RailWork s (s.confirmSwitch e) := by
  have h : RailWork s (s.onRail (Rail.onSwitch e ScanFilter.confirm)) := State.onRail_work _ s (by cases e <;> rfl)
  simp only [State.confirmSwitch]
  split
  · exact h.trans (State.railArrives_rail _ _)
  · exact h.trans (State.railDeparts_rail _ _)

theorem State.takeSwitch_rail (e : RailEnd) (s : State) : RailWork s (s.takeSwitch e) := by
  unfold State.takeSwitch
  split
  · exact s.confirmSwitch_rail e
  · exact RailWork.refl s

theorem State.takeMoveTimer_rail (s : State) : RailWork s s.takeMoveTimer := by
  unfold State.takeMoveTimer
  split
  · exact State.railFaults_rail _ s
  · exact RailWork.refl s

/-! ### The work of the voices and the wave store port -/

/-- What the Voice Engine and the Wave Fetch Unit change for a voice or the port: the voice records and the Wave Fetch
Unit. -/
def WaveWork (s t : State) : Prop := ∃ v w, t = { s with voice := { s.voice with voices := v }, wave := w }

theorem WaveWork.refl (s : State) : WaveWork s s := ⟨s.voice.voices, s.wave, rfl⟩

theorem WaveWork.trans {s t u : State} (h : WaveWork s t) (g : WaveWork t u) : WaveWork s u := by
  obtain ⟨v, w, rfl⟩ := h
  obtain ⟨v', w', rfl⟩ := g
  exact ⟨v', w', rfl⟩

theorem State.onWave_work (f : WaveUnit → WaveUnit) (s : State) : WaveWork s (s.onWave f) := ⟨s.voice.voices, _, rfl⟩

theorem State.freeVoice_wave (i : VoiceIx) (s : State) : WaveWork s (s.freeVoice i) := by
  simp only [State.freeVoice, State.onVoice, State.onWave]
  exact ⟨_, _, rfl⟩

theorem State.freeAllVoices_wave (s : State) : WaveWork s s.freeAllVoices := by
  simp only [State.freeAllVoices, State.onVoice, State.onWave]
  exact ⟨_, _, rfl⟩

theorem State.primingReport_wave (i : VoiceIx) (s : State) : WaveWork s (s.primingReport i) := ⟨_, s.wave, rfl⟩

theorem State.examineRefill_wave (i : VoiceIx) (s : State) : WaveWork s (s.examineRefill i) := s.onWave_work _

theorem State.startFetch_wave (i : VoiceIx) (s : State) : WaveWork s (s.startFetch i) := by
  simp only [State.startFetch]
  exact s.onWave_work _

theorem State.arbitrate_wave (s : State) : WaveWork s s.arbitrate := by
  unfold State.arbitrate
  repeat' split
  all_goals first
    | exact WaveWork.refl s
    | exact s.startFetch_wave _
    | exact s.onWave_work _

theorem State.beginLoad_wave (s : State) : WaveWork s s.beginLoad :=
  (s.freeAllVoices_wave.trans (State.onWave_work _ _)).trans (State.arbitrate_wave _)

theorem State.abortLoad_wave (s : State) : WaveWork s s.abortLoad := (s.onWave_work _).trans (State.arbitrate_wave _)

theorem State.freePort_wave (s : State) : WaveWork s s.freePort := (s.onWave_work _).trans (State.arbitrate_wave _)

theorem State.storeFetch_wave (i : VoiceIx) (data : List Byte) (s : State) : WaveWork s (s.storeFetch i data) := by
  unfold State.storeFetch
  exact s.onWave_work _

theorem State.fetchTaken_wave (i : VoiceIx) (data : List Byte) (s : State) : WaveWork s (s.fetchTaken i data) := by
  simp only [State.fetchTaken]
  split
  · exact ((s.storeFetch_wave i data).trans (State.primingReport_wave _ _)).trans (State.examineRefill_wave _ _)
  · exact (s.storeFetch_wave i data).trans (State.examineRefill_wave _ _)

theorem State.restrike_wave (source : Source) (key : Key) (s : State) : WaveWork s (s.restrike source key) := by
  simp only [State.restrike, State.onVoice, State.onWave]
  exact ⟨_, _, rfl⟩

theorem State.takeVoice_wave (s : State) : WaveWork s s.takeVoice.2 := by
  unfold State.takeVoice
  split
  · exact WaveWork.refl s
  · exact s.freeVoice_wave _

theorem State.startVoice_wave (i : VoiceIx) (source : Source) (key : Key) (level zone : Nat) (s : State) :
    WaveWork s (s.startVoice i source key level zone) := by
  have hv : ∀ f, WaveWork s (s.onVoice fun e => { e with voices := updateAt i f e.voices }) := fun f => ⟨_, s.wave, rfl⟩
  simp only [State.startVoice]
  split
  · exact ((((hv _).trans (State.onWave_work _ _)).trans (State.primingReport_wave _ _)).trans
      (State.examineRefill_wave _ _)).trans (State.arbitrate_wave _)
  · exact (((hv _).trans (State.onWave_work _ _)).trans (State.examineRefill_wave _ _)).trans (State.arbitrate_wave _)

theorem State.envelope_wave (s : State) : WaveWork s s.envelope := by
  simp only [State.envelope, State.onVoice, State.onWave]
  exact ⟨_, _, rfl⟩

/-- What taking a STRIKE changes: the voice block and the Wave Fetch Unit. -/
theorem State.takeStrike_frame (source : Source) (key : Key) (level : Byte) (s : State) :
    ∃ v w, s.takeStrike source key level = { s with voice := v, wave := w } := by
  simp only [State.takeStrike]
  repeat' split
  · exact ⟨s.voice, s.wave, rfl⟩
  · exact ⟨_, s.wave, rfl⟩
  · exact ⟨_, s.wave, rfl⟩
  · rename_i zone h
    obtain ⟨v, w, hw⟩ := ((s.restrike_wave source key).trans (State.takeVoice_wave _)).trans
      (State.startVoice_wave (s.restrike source key).takeVoice.1 source key
        (soundingLevel level.toNat (s.depthOf source)) zone (s.restrike source key).takeVoice.2)
    rw [hw]
    exact ⟨_, w, rfl⟩

/-- What taking a RELEASE changes: the voice records. -/
theorem State.takeRelease_frame (source : Source) (key : Key) (level : Byte) (s : State) :
    ∃ v, s.takeRelease source key level = { s with voice := { s.voice with voices := v } } := ⟨_, rfl⟩

/-- What an audio frame changes: the audio port, the voice block and the Wave Fetch Unit. -/
theorem State.audioFrame_frame (s : State) : ∃ a v w, s.audioFrame = { s with audio := a, voice := v, wave := w } := by
  unfold State.audioFrame
  generalize s.frameResults = results
  obtain ⟨v, w, h⟩ := State.arbitrate_wave
    ((s.onAudio (AudioPort.mix s.voice.voices (mapTable (fun r => r.1) results))).storeFrame results)
  rw [h]
  simp only [State.storeFrame, State.onAudio, State.onVoice, State.onWave]
  exact ⟨_, _, _, rfl⟩

/-! ### Sensing -/

/-- What the events of the action change: the Scanner, the live requests, the rail but for the guard's pin, the operation
slot, and what the player's work changes. -/
def SenseWork (s t : State) : Prop :=
  ∃ c l r slot u, PlayWork { s with
      scanner := c, voice := { s.voice with liveRequests := l }, rail := r, link := { s.link with slot := slot } } u
    ∧ r.guardLow = s.rail.guardLow ∧ t = u

theorem SenseWork.refl (s : State) : SenseWork s s :=
  ⟨s.scanner, s.voice.liveRequests, s.rail, s.link.slot, s, PlayWork.refl s, rfl, rfl⟩

theorem SenseWork.trans {s t u : State} (h : SenseWork s t) (g : SenseWork t u) : SenseWork s u := by
  obtain ⟨c, l, r, sl, _, ⟨p, d, q, v, n, k, rfl, h1, h2, h3, h4⟩, h5, rfl⟩ := h
  obtain ⟨c', l', r', sl', _, ⟨p', d', q', v', n', k', rfl, g1, g2, g3, g4⟩, g5, rfl⟩ := g
  exact ⟨c', l', r', sl', _, ⟨p', d', q', v', n', k', rfl, g1.trans h1, g2.trans h2, g3.trans h3, g4.trans h4⟩,
    g5.trans h5, rfl⟩

theorem PlayWork.sense {s t : State} (h : PlayWork s t) : SenseWork s t :=
  ⟨s.scanner, s.voice.liveRequests, s.rail, s.link.slot, t, h, rfl, rfl⟩

theorem RailWork.sense {s t : State} (h : RailWork s t) : SenseWork s t := by
  obtain ⟨r, n, sl, rfl, h1⟩ := h
  exact ⟨s.scanner, s.voice.liveRequests, r, sl, _,
    ⟨s.player, s.pedals, s.recorder, s.voice.playbackRequests, n, s.draws, rfl, rfl, rfl, rfl, rfl⟩, h1, rfl⟩

theorem State.onScanner_work (f : Scanner → Scanner) (s : State) : SenseWork s (s.onScanner f) :=
  ⟨_, s.voice.liveRequests, s.rail, s.link.slot, _, PlayWork.refl _, rfl, rfl⟩

theorem State.emitLive_sense (n : NoteRequest) (s : State) : SenseWork s (s.emitLive n) := by
  have h : SenseWork s (s.onVoice fun v => { v with liveRequests := v.liveRequests ++ [n] }) :=
    ⟨s.scanner, _, s.rail, s.link.slot, _, PlayWork.refl _, rfl, rfl⟩
  cases n with
  | strike k l => exact h.trans ((State.offer_play _ _ _).trans (State.matchStrike_play _ _)).sense
  | release k l => exact h.trans (State.offer_play _ _ _).sense

theorem State.foldl_sense {α : Type} (f : State → α → State) (h : ∀ s a, SenseWork s (f s a)) (l : List α) (s : State) :
    SenseWork s (l.foldl f s) := by
  induction l generalizing s with
  | nil => exact SenseWork.refl s
  | cons a l ih => exact (h s a).trans (ih (f s a))

theorem State.crossing_sense (key : Key) (g : Gate) (s : State) : SenseWork s (s.crossing key g) := by
  simp only [State.crossing]
  have h : ∀ c, SenseWork s (List.foldl (fun s n => s.emitLive n) (s.onScanner c)
      (KeyRecord.cross key g (s.keyActive key) (guardLength s.rail.state) (s.actionClock - 2) (s.touchLevelOf key)
        s.scanner.keys[key]).2) := fun c =>
    (State.onScanner_work c s).trans (State.foldl_sense (fun s n => s.emitLive n) (fun s n => s.emitLive_sense n) _ _)
  split
  · exact (h _).trans (State.g2Report_rail _).sense
  · exact h _

theorem State.takeCrossing_sense (key : Key) (g : Gate) (s : State) : SenseWork s (s.takeCrossing key g) := by
  unfold State.takeCrossing
  split
  · exact s.crossing_sense key g
  · exact SenseWork.refl s

theorem State.takeStale_sense (key : Key) (s : State) : SenseWork s (s.takeStale key) := State.onScanner_work _ s

theorem State.takeGuard_sense (key : Key) (s : State) : SenseWork s (s.takeGuard key) := State.onScanner_work _ s

theorem State.takeSettle_sense (s : State) : SenseWork s s.takeSettle := by
  simp only [State.takeSettle, State.settleExpires]
  split
  · split
    · exact ((State.onScanner_work _ s).trans (State.onScanner_work _ _)).trans (State.quietGrant_rail _).sense
    · exact State.onScanner_work _ s
  · exact SenseWork.refl s

theorem State.takePlaybackTick_sense (s : State) : SenseWork s s.takePlaybackTick := by
  unfold State.takePlaybackTick
  split
  · exact s.playbackTick_play.sense
  · exact SenseWork.refl s

theorem State.takeKeyLeftovers_sense (s : State) (key : Key) : SenseWork s (s.takeKeyLeftovers key) :=
  ((((s.takeCrossing_sense key .g2).trans (State.takeCrossing_sense key .g1 _)).trans
    (State.takeCrossing_sense key .g2 _)).trans (State.takeStale_sense key _)).trans (State.takeGuard_sense key _)

/-! ### The queue of waiting commands -/

/-- No sensing work touches the queue of commands or the clocks. -/
theorem SenseWork.pending {s t : State} (h : SenseWork s t) : t.pending = s.pending := by
  obtain ⟨c, l, r, sl, _, ⟨p, d, q, v, n, k, rfl, -⟩, -, rfl⟩ := h
  rfl

theorem PlayWork.pending {s t : State} (h : PlayWork s t) : t.pending = s.pending := h.sense.pending

theorem RailWork.pending {s t : State} (h : RailWork s t) : t.pending = s.pending := h.sense.pending

theorem WaveWork.pending {s t : State} (h : WaveWork s t) : t.pending = s.pending := by
  obtain ⟨v, w, rfl⟩ := h
  rfl

end Sys2Proof.Machine
end

