-- ==== Sys2Proof/Laws/Offers.lean ====
section
/-! SUPPORT. What a run of offers to the recorder does: it commutes with every change of another block, and the pedals' offers and a scan's RELEASEs are such runs. -/

namespace Sys2Proof.Machine

/-! ### One offer, and a run of offers -/

/-- What an offer leaves in the recorder and the pending notices depends on those, the clock and the event alone. -/
theorem State.offer_spec (source : Source) (e : RecorderEvent) (s : State) : ∃ r n,
    ∀ x : State, x.recorder = s.recorder → x.perfClock = s.perfClock → x.link = s.link →
      x.offer source e = { x with recorder := r, link := { s.link with pendingSet := n } } := by
  unfold State.offer
  by_cases h : (s.recorder.recording && s.recorder.mask.includes source) = true
  · cases first : (s.recorder.take s.perfClock e).2
    · refine ⟨(s.recorder.take s.perfClock e).1, s.link.pendingSet, fun x h1 h2 h3 => ?_⟩
      cases x
      simp only at h1 h2 h3
      subst h1 h2 h3
      simp only [h, if_true, first]
      rfl
    · refine ⟨(s.recorder.take s.perfClock e).1, s.link.pendingSet ||| Notice.recordLost.bit, fun x h1 h2 h3 => ?_⟩
      cases x
      simp only at h1 h2 h3
      subst h1 h2 h3
      simp only [h, if_true, first]
      rfl
  · exact ⟨s.recorder, s.link.pendingSet, fun x h1 h2 h3 => by rw [if_neg (by rw [h1]; exact h), ← h1, ← h3]⟩

/-- A run of offers writes the recorder and the pending notices, the same in every state that agrees on them and the clock. -/
theorem State.offers_spec (source : Source) (events : List RecorderEvent) (s : State) : ∃ r n,
    ∀ x : State, x.recorder = s.recorder → x.perfClock = s.perfClock → x.link = s.link →
      events.foldl (fun u e => u.offer source e) x = { x with recorder := r, link := { s.link with pendingSet := n } } := by
  induction events generalizing s with
  | nil => exact ⟨s.recorder, s.link.pendingSet, fun x h1 _ h3 => by rw [← h1, ← h3]; rfl⟩
  | cons e rest ih =>
    obtain ⟨r, n, first⟩ := s.offer_spec source e
    obtain ⟨r', n', tail⟩ := ih { s with recorder := r, link := { s.link with pendingSet := n } }
    refine ⟨r', n', fun x h1 h2 h3 => ?_⟩
    rw [List.foldl_cons, first x h1 h2 h3]
    exact tail _ rfl h2 rfl

theorem State.offer_onPlayer (source : Source) (e : RecorderEvent) (s : State) (f : Player → Player) :
    (s.offer source e).onPlayer f = (s.onPlayer f).offer source e := by
  obtain ⟨r, n, h⟩ := s.offer_spec source e
  rw [h s rfl rfl rfl, h (s.onPlayer f) rfl rfl rfl]
  rfl

theorem State.offer_onPedals (source : Source) (e : RecorderEvent) (s : State) (f : PedalUnit → PedalUnit) :
    (s.offer source e).onPedals f = (s.onPedals f).offer source e := by
  obtain ⟨r, n, h⟩ := s.offer_spec source e
  rw [h s rfl rfl rfl, h (s.onPedals f) rfl rfl rfl]
  rfl

theorem State.offer_onVoice (source : Source) (e : RecorderEvent) (s : State) (f : VoiceEngine → VoiceEngine) :
    (s.offer source e).onVoice f = (s.onVoice f).offer source e := by
  obtain ⟨r, n, h⟩ := s.offer_spec source e
  rw [h s rfl rfl rfl, h (s.onVoice f) rfl rfl rfl]
  rfl

theorem State.offers_onPedals (source : Source) (events : List RecorderEvent) (s : State) (f : PedalUnit → PedalUnit) :
    (events.foldl (fun u e => u.offer source e) s).onPedals f
      = events.foldl (fun u e => u.offer source e) (s.onPedals f) := by
  obtain ⟨r, n, h⟩ := s.offers_spec source events
  rw [h s rfl rfl rfl, h (s.onPedals f) rfl rfl rfl]
  rfl

theorem State.offers_pedals (source : Source) (events : List RecorderEvent) (s : State) :
    (events.foldl (fun u e => u.offer source e) s).pedals = s.pedals := by
  obtain ⟨r, n, h⟩ := s.offers_spec source events
  rw [h s rfl rfl rfl]

/-! ### The pedals' offers (R52) -/

/-- The damper value has moved enough to be offered (R52). -/
def PedalUnit.liftMoves (p : PedalUnit) : Bool :=
  p.refLift + 8 ≤ p.live.lift ∨ p.live.lift + 8 ≤ p.refLift ∨ (p.live.lift = 0 ∨ p.live.lift = 255) ∧ p.live.lift ≠ p.refLift

/-- The una corda value has moved enough to be offered (R52). -/
def PedalUnit.valueMoves (p : PedalUnit) : Bool :=
  p.refUnaCorda + 8 ≤ p.live.unaCorda ∨ p.live.unaCorda + 8 ≤ p.refUnaCorda ∨ p.live.unaCorda = 0 ∧ p.refUnaCorda ≠ 0

/-- The damper's record, if it is offered. -/
def PedalUnit.damperEvents (p : PedalUnit) : List RecorderEvent :=
  if p.liftMoves then [.pedal .damper (BitVec.ofNat 8 p.live.lift)] else []

/-- The sostenuto's record, if it is offered. -/
def PedalUnit.sostenutoEvents (p : PedalUnit) : List RecorderEvent :=
  if p.live.sostenuto != p.refSostenuto then [.pedal .sostenuto (if p.live.sostenuto then 1 else 0)] else []

/-- The una corda's record, if it is offered. -/
def PedalUnit.unaCordaEvents (p : PedalUnit) : List RecorderEvent :=
  if p.valueMoves then [.pedal .unaCorda (BitVec.ofNat 8 p.live.unaCorda)] else []

theorem State.offerDamper_eq (s : State) : s.offerDamper
    = s.pedals.damperEvents.foldl (fun u e => u.offer .live e)
        (s.onPedals fun p => { p with refLift := if s.pedals.liftMoves then s.pedals.live.lift else s.pedals.refLift }) := by
  have h : (movedBy8 s.pedals.live.lift s.pedals.refLift
      || ((s.pedals.live.lift = 0 || s.pedals.live.lift = 255) && s.pedals.live.lift != s.pedals.refLift)) = s.pedals.liftMoves := by
    rw [Bool.eq_iff_iff]
    simp only [movedBy8, PedalUnit.liftMoves, Bool.or_eq_true, Bool.and_eq_true, bne_iff_ne, decide_eq_true_eq]
    omega
  simp only [State.offerDamper, h, PedalUnit.damperEvents]
  cases s.pedals.liftMoves
  · rfl
  · simp only [if_true, List.foldl, State.offer_onPedals]

theorem State.offerSostenuto_eq (s : State) : s.offerSostenuto
    = s.pedals.sostenutoEvents.foldl (fun u e => u.offer .live e)
        (s.onPedals fun p => { p with refSostenuto := s.pedals.live.sostenuto }) := by
  simp only [State.offerSostenuto, PedalUnit.sostenutoEvents]
  by_cases h : s.pedals.live.sostenuto = s.pedals.refSostenuto
  · simp only [h, bne_self_eq_false, Bool.false_eq_true, if_false, List.foldl]
    rfl
  · have moved : (s.pedals.live.sostenuto != s.pedals.refSostenuto) = true := by simpa using h
    simp only [moved, if_true, List.foldl, State.offer_onPedals, onByte]

theorem State.offerUnaCorda_eq (s : State) : s.offerUnaCorda
    = s.pedals.unaCordaEvents.foldl (fun u e => u.offer .live e)
        (s.onPedals fun p => { p with
          refUnaCorda := if s.pedals.valueMoves then s.pedals.live.unaCorda else s.pedals.refUnaCorda }) := by
  have h : (movedBy8 s.pedals.live.unaCorda s.pedals.refUnaCorda
      || (s.pedals.live.unaCorda = 0 && s.pedals.refUnaCorda != 0)) = s.pedals.valueMoves := by
    rw [Bool.eq_iff_iff]
    simp only [movedBy8, PedalUnit.valueMoves, Bool.or_eq_true, Bool.and_eq_true, bne_iff_ne, decide_eq_true_eq]
    omega
  simp only [State.offerUnaCorda, h, PedalUnit.unaCordaEvents]
  cases s.pedals.valueMoves
  · rfl
  · simp only [if_true, List.foldl, State.offer_onPedals]

/-! ### A scan's RELEASEs (R9, R16) -/

/-- A list of RELEASEs emitted one after the other: all are handed to the Voice Engine, and all are offered, in that order. -/
theorem State.emitReleases_eq (keys : List Key) (level : Key → Option Nat) (s : State) :
    keys.foldl (fun s k => match level k with
      | some l => s.emitLive (.release k (BitVec.ofNat 8 l))
      | none => s) s
    = (keys.filterMap fun k => (level k).map fun l => RecorderEvent.release k (BitVec.ofNat 8 l)).foldl
        (fun u e => u.offer .live e) (s.onVoice fun v => { v with
          liveRequests := v.liveRequests
            ++ keys.filterMap fun k => (level k).map fun l => NoteRequest.release k (BitVec.ofNat 8 l) }) := by
  induction keys generalizing s with
  | nil => simp [State.onVoice]
  | cons k rest ih =>
    rw [List.foldl_cons, ih]
    cases h : level k with
    | none => simp [h]
    | some l =>
      simp only [h, List.filterMap_cons, Option.map_some, List.foldl_cons, State.emitLive, State.offer_onVoice]
      refine congrArg (fun v => List.foldl _ (State.offer _ _ v) _) ?_
      simp [State.onVoice]

/-- The level a scan releases a key with, if it ends the key's stroke (R9, R23). -/
def State.releaseLevel (samples : ScanSamples) (s : State) (k : Key) : Option Nat :=
  (mapTableIx (fun i k => KeyRecord.scan s.scanner.ready s.touch.table[i] samples.keys[i].toNat k) s.scanner.keys)[k].2

/-- The key records a scan leaves, before any RELEASE goes out (R2, R3, R28). -/
def State.keysScanned (samples : ScanSamples) (s : State) : State :=
  (s.onTouch fun t => { t with inEffect := t.table }).onScanner fun c => { c with
    keys := mapTable Prod.fst
      (mapTableIx (fun i k => KeyRecord.scan s.scanner.ready s.touch.table[i] samples.keys[i].toNat k) s.scanner.keys) }

theorem State.scanKeys_eq (samples : ScanSamples) (s : State) : s.scanKeys samples
    = (allKeys.filterMap fun k =>
        (s.releaseLevel samples k).map fun l => RecorderEvent.release k (BitVec.ofNat 8 l)).foldl
        (fun u e => u.offer .live e) ((s.keysScanned samples).onVoice fun v => { v with
          liveRequests := v.liveRequests ++ allKeys.filterMap fun k =>
            (s.releaseLevel samples k).map fun l => NoteRequest.release k (BitVec.ofNat 8 l) }) := by
  rw [← State.emitReleases_eq]
  unfold State.scanKeys
  extract_lets results s1 s2
  refine List.foldl_ext _ _ _ ?_
  intro t k _
  have level : s.releaseLevel samples k = results[k].2 := rfl
  cases h : results[k].2 <;> simp only [level, h]

end Sys2Proof.Machine
end

