-- ==== Sys2Proof/Laws/Tables.lean ====
section
/-! SUPPORT. The small lemmas of tables, counters, key sets, byte order, notices and the passage store. -/

namespace Sys2Proof.Machine

theorem bump_of_lt (c : Nat) (h : c < 65535) : bump c = c + 1 := by simp [bump, Config.counterMax, h]

/-- A counter's step, for a counter in its range. -/
theorem bump_eq_min (c : Nat) (h : c ≤ 65535) : bump c = min 65535 (c + 1) := by
  unfold bump Config.counterMax
  split <;> omega

theorem insertKey_ne_nil (k : Key) (set : List Key) : insertKey k set ≠ [] := by
  intro h
  have : k ∈ insertKey k set := mem_insertKey.mpr (Or.inl rfl)
  rw [h] at this
  exact absurd this (by simp)

/-! ### Key sets in ascending order -/

theorem insertKey_ascending (k : Key) {set : List Key} (h : set.Pairwise (· < ·)) : (insertKey k set).Pairwise (· < ·) := by
  induction set with
  | nil => simp [insertKey]
  | cons j rest ih =>
    rw [List.pairwise_cons] at h
    unfold insertKey
    split
    · rename_i lt
      refine .cons ?_ (.cons h.1 h.2)
      rintro i (_ | ⟨_, hi⟩)
      · exact lt
      · exact lt.trans (h.1 i hi)
    · split
      · exact .cons h.1 h.2
      · refine .cons ?_ (ih h.2)
        intro i hi
        rcases mem_insertKey.1 hi with rfl | hi
        · rename_i lt ne
          exact lt_of_le_of_ne (not_lt.1 lt) (Ne.symm ne)
        · exact h.1 i hi

theorem removeKey_ascending (k : Key) {set : List Key} (h : set.Pairwise (· < ·)) : (removeKey k set).Pairwise (· < ·) :=
  h.filter _

theorem allKeys_filter_ascending (f : Key → Bool) : (allKeys.filter f).Pairwise (· < ·) :=
  (List.pairwise_lt_finRange 88).filter _

/-- A key joins a set given by a test. -/
theorem insertKey_filter (k : Key) (f : Key → Bool) :
    insertKey k (allKeys.filter f) = allKeys.filter fun j => f j || decide (j = k) :=
  (insertKey_ascending k (allKeys_filter_ascending f)).eq_of_mem_iff (allKeys_filter_ascending _) fun j => by
    simp [mem_insertKey, allKeys, or_comm]

/-! ### Byte order (R194) -/

theorem half_of_bytes (x : Half) : half (x.extractLsb' 0 8) (x.extractLsb' 8 8) = x := by
  unfold half
  rw [BitVec.extractLsb'_append_extractLsb'_eq_extractLsb'] <;> simp

theorem long_of_bytes (x : Long) :
    long (x.extractLsb' 0 8) (x.extractLsb' 8 8) (x.extractLsb' 16 8) (x.extractLsb' 24 8) = x := by
  unfold long
  ext i hi
  simp
  grind

/-! ### Notices -/

theorem Notice.bit_get (n m : Notice) : n.bit.getLsbD m.code = decide (n = m) := by
  cases n <;> cases m <;> decide

theorem State.raise_pendingSet (n : Notice) (s : State) : (s.raise n).link.pendingSet = s.link.pendingSet ||| n.bit := rfl

/-! ### The passage store -/

theorem passageRising_mono (low low' : Nat) (h : low' ≤ low) (store : List (Nat × Record)) (w : passageRising low store = true) :
    passageRising low' store = true := by
  cases store with
  | nil => rfl
  | cons e rest =>
    simp only [passageRising, Bool.and_eq_true, decide_eq_true_eq] at w ⊢
    exact ⟨⟨by omega, w.1.2⟩, w.2⟩

theorem passageWrite_rising (slot : Nat) (rec : Record) (store : List (Nat × Record)) (low : Nat) (h : low ≤ slot)
    (w : passageRising low store = true) : passageRising low (passageWrite slot rec store) = true := by
  induction store generalizing low with
  | nil =>
    unfold passageWrite
    split
    · rfl
    · rename_i e; simp [passageRising, h, e]
  | cons e rest ih =>
    obtain ⟨j, r⟩ := e
    simp only [passageRising, Bool.and_eq_true, decide_eq_true_eq] at w
    unfold passageWrite
    split
    · rename_i lt
      split
      · simp [passageRising, w.1.1, w.1.2, w.2]
      · rename_i e
        have hj : slot + 1 ≤ j := lt
        simp [passageRising, h, e, hj, w.1.2, w.2]
    · split
      · rename_i eq
        subst eq
        split
        · exact passageRising_mono (slot + 1) low (by omega) rest w.2
        · rename_i e; simp [passageRising, h, e, w.2]
      · rename_i n1 n2
        simp only [passageRising, Bool.and_eq_true, decide_eq_true_eq]
        exact ⟨w.1, ih (j + 1) (by omega) w.2⟩

theorem passageWrite_slots (slot : Nat) (rec : Record) (store : List (Nat × Record)) (h : slot < Config.passageSlots)
    (w : store.all (fun e => e.1 < Config.passageSlots) = true) :
    (passageWrite slot rec store).all (fun e => e.1 < Config.passageSlots) = true := by
  induction store with
  | nil => unfold passageWrite; split <;> simp [h]
  | cons e rest ih =>
    obtain ⟨j, r⟩ := e
    simp only [List.all_cons, Bool.and_eq_true, decide_eq_true_eq] at w
    unfold passageWrite
    split
    · split
      · simpa using w
      · simpa [h] using w
    · split
      · split
        · exact w.2
        · simp only [List.all_cons, Bool.and_eq_true, decide_eq_true_eq]; exact w
      · simp only [List.all_cons, Bool.and_eq_true, decide_eq_true_eq]
        exact ⟨w.1, ih w.2⟩

/-- Writing a slot keeps the passage store's canonical form. -/
theorem passageWrite_wf (slot : Nat) (rec : Record) (store : List (Nat × Record)) (h : slot < Config.passageSlots)
    (w : passageWf store = true) : passageWf (passageWrite slot rec store) = true := by
  simp only [passageWf, Bool.and_eq_true] at w ⊢
  exact ⟨passageWrite_rising slot rec store 0 (by omega) w.1, passageWrite_slots slot rec store h w.2⟩

/-- Writing a run within the store keeps its canonical form. -/
theorem passageWriteRun_wf (start : Nat) (records : List Record) (store : List (Nat × Record))
    (h : start + records.length ≤ Config.passageSlots) (w : passageWf store = true) :
    passageWf (passageWriteRun start records store) = true := by
  induction records generalizing start store with
  | nil => exact w
  | cons r rest ih =>
    simp only [List.length_cons] at h
    exact ih (start + 1) _ (by omega) (passageWrite_wf start r store (by omega) w)

theorem passageAt_cons (j slot : Nat) (r : Record) (rest : List (Nat × Record)) :
    passageAt ((j, r) :: rest) slot = if j = slot then r else passageAt rest slot := by
  unfold passageAt
  rw [List.find?_cons]
  by_cases e : j = slot <;> simp [e]

theorem passageAt_below (low slot : Nat) (store : List (Nat × Record)) (h : slot < low) (w : passageRising low store = true) :
    passageAt store slot = nopRecord := by
  induction store generalizing low with
  | nil => rfl
  | cons e rest ih =>
    obtain ⟨j, r⟩ := e
    simp only [passageRising, Bool.and_eq_true, decide_eq_true_eq] at w
    rw [passageAt_cons, if_neg (by omega)]
    exact ih (j + 1) (by omega) w.2

/-- A read after a write of a slot: the record written there, and every other slot as before. -/
theorem passageAt_write (slot : Nat) (rec : Record) (store : List (Nat × Record)) (low : Nat)
    (w : passageRising low store = true) (j : Nat) :
    passageAt (passageWrite slot rec store) j = if j = slot then rec else passageAt store j := by
  induction store generalizing low with
  | nil =>
    unfold passageWrite
    split
    · rename_i e
      subst e
      split
      · rfl
      · rfl
    · rw [passageAt_cons]
      by_cases e : j = slot
      · simp [e]
      · rw [if_neg (Ne.symm e), if_neg e]
  | cons e rest ih =>
    obtain ⟨i, r⟩ := e
    simp only [passageRising, Bool.and_eq_true, decide_eq_true_eq] at w
    unfold passageWrite
    split
    · rename_i lt
      split
      · rename_i e
        by_cases h : j = slot
        · subst h
          rw [if_pos rfl, passageAt_cons, if_neg (by omega), passageAt_below (i + 1) j rest (by omega) w.2, e]
        · rw [if_neg h]
      · rw [passageAt_cons]
        by_cases h : j = slot
        · simp [h]
        · rw [if_neg (Ne.symm h), if_neg h]
    · split
      · rename_i eq
        subst eq
        split
        · rename_i e
          by_cases h : j = slot
          · subst h
            rw [if_pos rfl, passageAt_below (j + 1) j rest (by omega) w.2, e]
          · rw [if_neg h, passageAt_cons, if_neg (Ne.symm h)]
        · rw [passageAt_cons, passageAt_cons]
          by_cases h : j = slot
          · simp [h]
          · rw [if_neg (Ne.symm h), if_neg h, if_neg (Ne.symm h)]
      · rename_i n1 n2
        rw [passageAt_cons, passageAt_cons, ih (i + 1) w.2]
        by_cases h : i = j
        · rw [if_pos h, if_neg (by omega), if_pos h]
        · rw [if_neg h, if_neg h]

end Sys2Proof.Machine
end

