-- ==== Sys2Proof/Laws/Playback.lean ====
section
/-! SUPPORT. What one firing, one range's beginning, one wait, a chain of empty segments and the playback clearing do, said once each; and that a firing run has fuel enough. -/

namespace Sys2Proof.Machine

theorem keyOf_eq_some (b : Byte) (k : Key) : keyOf b = some k ↔ b.toNat = k.val := by
  unfold keyOf
  split
  · constructor
    · intro h
      cases h
      rfl
    · exact fun h => congrArg some (Fin.ext h)
  · have := k.2
    constructor
    · intro h
      cases h
    · intro h
      omega

theorem keyOf_eq_none (b : Byte) : keyOf b = none ↔ 88 ≤ b.toNat := by
  unfold keyOf
  split <;> simp <;> omega

theorem length_insertKey_le (k : Key) (set : List Key) : (insertKey k set).length ≤ set.length + 1 := by
  induction set with
  | nil => simp [insertKey]
  | cons a rest ih =>
    unfold insertKey
    split
    · simp
    · split
      · simp
      · simpa using ih

/-! ### The due record (R156, R163, R167) -/

theorem Player.mutedStrike_eq_some (p : Player) (r : Record) (k : Key) :
    p.mutedStrike r = some k ↔ r.kind = 1 ∧ r.key.toNat = k.val ∧ p.sounds k = false := by
  unfold Player.mutedStrike
  rw [ite_eq_iff, ← keyOf_eq_some]
  cases keyOf r.key with
  | none => simp
  | some j =>
    simp only [Option.some.injEq]
    cases h : p.sounds j
    · simp only [Bool.false_eq_true, if_false, Option.some.injEq]
      constructor
      · rintro (⟨hk, rfl⟩ | ⟨-, h⟩)
        · exact ⟨hk, rfl, h⟩
        · cases h
      · rintro ⟨hk, rfl, -⟩
        exact .inl ⟨hk, rfl⟩
    · simp only [if_true]
      constructor
      · rintro (⟨-, h⟩ | ⟨-, h⟩) <;> cases h
      · rintro ⟨-, rfl, h'⟩
        rw [h] at h'
        cases h'

/-- The due record begins a wait exactly for a muted STRIKE of a wait segment that no earlier wait has examined (R167). -/
theorem Player.waitKey_eq_some (p : Player) (k : Key) : p.waitKey = some k ↔
    p.segment.wait = true ∧ (passageAt p.passage p.slot).kind = 1 ∧ (passageAt p.passage p.slot).key.toNat = k.val
      ∧ p.sounds k = false ∧ ∀ through, p.satisfied = some through → through < p.slot := by
  unfold Player.waitKey
  rw [ite_eq_iff, Player.mutedStrike_eq_some]
  simp only [Bool.and_eq_true, reduceCtorEq, and_false, or_false]
  cases p.satisfied with
  | none => simp
  | some through =>
    simp
    tauto

/-! ### The lookahead (R167) -/

theorem Player.gathers_zero (muted : Key → Bool) (due : Key) (p : Player) : p.gathers muted due 0 = [due] :=
  (allKeys_filter_ascending _).eq_of_mem_iff (List.pairwise_singleton _ _) fun j => by simp [allKeys]

/-- One more slot examined. -/
theorem Player.gathers_succ (due : Key) (n : Nat) (p : Player) : p.gathers (fun k => !p.sounds k) due (n + 1)
    = match p.mutedStrike (passageAt p.passage (p.slot + 1 + n)) with
      | some k => insertKey k (p.gathers (fun k => !p.sounds k) due n)
      | none => p.gathers (fun k => !p.sounds k) due n := by
  cases h : p.mutedStrike (passageAt p.passage (p.slot + 1 + n)) with
  | none =>
    refine (allKeys_filter_ascending _).eq_of_mem_iff (allKeys_filter_ascending _) fun j => ?_
    have : ¬ ((passageAt p.passage (p.slot + 1 + n)).kind = 1 ∧ (passageAt p.passage (p.slot + 1 + n)).key.toNat = j.val
        ∧ p.sounds j = false) := fun hj => by simp [(p.mutedStrike_eq_some _ j).2 hj] at h
    simp only [Player.gathers, allKeys, List.mem_filter, List.mem_finRange, true_and, List.range_succ, List.any_append,
      Bool.or_eq_true, Bool.and_eq_true, decide_eq_true_eq, List.any_cons, List.any_nil, Bool.or_false, Bool.not_eq_true']
    tauto
  | some k =>
    have hk := (p.mutedStrike_eq_some _ k).1 h
    refine (allKeys_filter_ascending _).eq_of_mem_iff (insertKey_ascending k (allKeys_filter_ascending _)) fun j => ?_
    have : j = k ↔ (passageAt p.passage (p.slot + 1 + n)).kind = 1
        ∧ (passageAt p.passage (p.slot + 1 + n)).key.toNat = j.val ∧ p.sounds j = false := by
      rw [← p.mutedStrike_eq_some, h, Option.some.injEq, eq_comm]
    simp only [mem_insertKey, Player.gathers, allKeys, List.mem_filter, List.mem_finRange, true_and, List.range_succ,
      List.any_append, Bool.or_eq_true, Bool.and_eq_true, decide_eq_true_eq, List.any_cons, List.any_nil, Bool.or_false,
      Bool.not_eq_true', this]
    tauto

theorem Player.lookahead_eq (due : Key) (p : Player) (left i time : Nat)
    (range : left = p.segment.start + p.segment.count - (p.slot + 1 + i))
    (at' : time = ((List.range i).map fun j => (passageAt p.passage (p.slot + 1 + j)).delta.toNat).sum
      + ((List.range i).map fun j => gapOf (passageAt p.passage (p.slot + 1 + j))).sum) :
    ∃ n, i ≤ n ∧ (∀ j, i ≤ j → j < n → p.slot + 1 + j < p.segment.start + p.segment.count ∧ p.lookaheadTime j ≤ 30
        ∧ (p.gathers (fun k => !p.sounds k) due j).length < 10)
      ∧ ¬ (p.slot + 1 + n < p.segment.start + p.segment.count ∧ p.lookaheadTime n ≤ 30
        ∧ (p.gathers (fun k => !p.sounds k) due n).length < 10)
      ∧ p.lookahead left (p.slot + 1 + i) time (p.gathers (fun k => !p.sounds k) due i) (p.slot + i)
        = (p.gathers (fun k => !p.sounds k) due n, p.slot + n) := by
  induction left generalizing i time with
  | zero => exact ⟨i, le_refl i, fun j h h' => by omega, fun h => by omega, rfl⟩
  | succ left ih =>
    have now : time + (passageAt p.passage (p.slot + 1 + i)).delta.toNat = p.lookaheadTime i := by
      rw [at', Player.lookaheadTime, List.range_succ, List.map_append, List.sum_append]
      simp only [List.map_cons, List.map_nil, List.sum_cons, List.sum_nil, gapOf]
      omega
    simp only [Player.lookahead]
    rw [now]
    split
    · rename_i stop
      refine ⟨i, le_refl i, fun j h h' => by omega, fun h => ?_, rfl⟩
      simp only [Bool.or_eq_true, decide_eq_true_eq] at stop
      omega
    · rename_i room
      simp only [Bool.or_eq_true, decide_eq_true_eq] at room
      obtain ⟨n, h1, h2, h3, h4⟩ := ih (i + 1) (p.lookaheadTime i + gapOf (passageAt p.passage (p.slot + 1 + i))) (by omega) (by
        rw [← now, at', List.range_succ, List.map_append, List.map_append, List.sum_append, List.sum_append]
        simp only [List.map_cons, List.map_nil, List.sum_cons, List.sum_nil]
        omega)
      refine ⟨n, by omega, fun j hj hn => ?_, h3, ?_⟩
      · rcases Nat.eq_or_lt_of_le hj with rfl | hj
        · exact ⟨by omega, by omega, by omega⟩
        · exact h2 j hj hn
      · rw [← h4, p.gathers_succ, show p.slot + (i + 1) = p.slot + 1 + i by omega]
        rfl


/-- What a wait gathers (R167): the due record's key and muted ones alone, at most ten. -/
theorem Player.gathers_spec (due : Key) (n : Nat) (p : Player) (muted : p.sounds due = false)
    (h : p.examines (fun k => !p.sounds k) due n) :
    due ∈ p.gathers (fun k => !p.sounds k) due n ∧ (p.gathers (fun k => !p.sounds k) due n).length ≤ 10
      ∧ ∀ j ∈ p.gathers (fun k => !p.sounds k) due n, p.sounds j = false := by
  refine ⟨by simp [Player.gathers, allKeys], ?_, fun j hj => ?_⟩
  · cases n with
    | zero => simp [Player.gathers_zero]
    | succ n =>
      have := (h.1 n (Nat.lt_succ_self n)).2.2
      rw [p.gathers_succ]
      split
      · exact (length_insertKey_le _ _).trans this
      · exact this.le
  · simp only [Player.gathers, List.mem_filter, Bool.or_eq_true, Bool.and_eq_true, decide_eq_true_eq,
      Bool.not_eq_true'] at hj
    rcases hj.2 with rfl | hj
    · exact muted
    · exact hj.1

/-- A wait's beginning (R167): the lookahead examines as many slots as Player.examines says, and gathers their keys. -/
theorem State.beginWait_eq (due : Key) (s : State) : ∃ n, s.player.examines (fun k => !s.player.sounds k) due n
    ∧ s.beginWait due = State.raise .playWait (s.onPlayer fun p => { p with
        expected := s.player.gathers (fun k => !s.player.sounds k) due n, satisfied := some (s.player.slot + n)
        state := .waiting, tempo := none }) := by
  obtain ⟨n, -, all, stop, eq⟩ := s.player.lookahead_eq due
    (s.player.segment.start + s.player.segment.count - 1 - s.player.slot) 0 0 (by omega) rfl
  refine ⟨n, ⟨fun i => all i (Nat.zero_le i), stop⟩, ?_⟩
  rw [Player.gathers_zero] at eq
  unfold State.beginWait
  simp only [show s.player.slot + 1 + 0 = s.player.slot + 1 from rfl, show s.player.slot + 0 = s.player.slot from rfl] at eq
  simp only [eq]

/-! ### Firing (R159) -/

/-- A firing run stops unless the player is RUNNING with its countdown at 0. -/
theorem State.firingRun_stops (fuel : Nat) (zeroBegun : Bool) (s : State)
    (h : ¬ (s.player.state = .running ∧ s.player.countdown = 0)) : s.firingRun fuel zeroBegun = s := by
  cases fuel with
  | zero => rfl
  | succ fuel =>
    simp only [State.firingRun]
    rw [if_neg h]

/-- One step of a firing run: a wait, a halt, the next record of the range, or the range's end. -/
theorem State.firingRun_fires (fuel : Nat) (zeroBegun : Bool) (s : State) (state : s.player.state = .running)
    (due : s.player.countdown = 0) : s.firingRun (fuel + 1) zeroBegun =
    match s.player.waitKey with
    | some k => s.beginWait k
    | none =>
      match s.fireRecord (passageAt s.player.passage s.player.slot) with
      | none => s.playerHalts .haltedBadEvent
      | some t =>
        if t.player.slot + 1 < t.player.segment.start + t.player.segment.count then
          State.firingRun fuel zeroBegun (t.onPlayer fun p => { p with
            slot := p.slot + 1, countdown := (passageAt p.passage (p.slot + 1)).delta.toNat + p.gap, gap := 0 })
        else State.firingRun fuel (t.endRange zeroBegun).2 (t.endRange zeroBegun).1 := by
  simp only [State.firingRun]
  exact if_pos ⟨state, due⟩

/-- A record that fires within its range, with time before the next one, ends the firing run. -/
theorem State.firingRun_once (fuel : Nat) (zeroBegun : Bool) (s t : State) (state : s.player.state = .running)
    (due : s.player.countdown = 0) (noWait : s.player.waitKey = none)
    (fires : s.fireRecord (passageAt s.player.passage s.player.slot) = some t)
    (inside : t.player.slot + 1 < t.player.segment.start + t.player.segment.count)
    (time : (passageAt t.player.passage (t.player.slot + 1)).delta.toNat + t.player.gap ≠ 0) :
    s.firingRun (fuel + 1) zeroBegun = t.onPlayer fun p => { p with
      slot := p.slot + 1, countdown := (passageAt p.passage (p.slot + 1)).delta.toNat + p.gap, gap := 0 } := by
  rw [State.firingRun_fires fuel zeroBegun s state due, noWait, fires]
  simp only [if_pos inside]
  exact State.firingRun_stops _ _ _ fun h => time h.2

/-! ### A firing run has fuel enough (R159, R162) -/

/-- What a fired record can change in the player: the held-key set and the carried gap (R163, R164). -/
theorem State.fireRecord_player (r : Record) (s f : State) (h : s.fireRecord r = some f) :
    f.player = { s.player with held := f.player.held, gap := f.player.gap } := by
  have offered : ∀ (t : State) (e : RecorderEvent), (t.offer .playback e).player = t.player := fun t e => by
    obtain ⟨r, n, h⟩ := t.offer_frame .playback e
    rw [h]
  have handed : ∀ n, (s.handPlayback n).player = s.player := fun n => offered _ _
  have written : ∀ which value, (s.writePlayback which value).player = s.player := fun which value => rfl
  unfold State.fireRecord at h
  split at h
  · cases h; rfl
  · split at h
    · cases h
    · split at h <;> cases h
      · simp only [State.onPlayer_player, handed]
      · rfl
  · split at h
    · cases h
    · split at h <;> cases h
      · simp only [State.onPlayer_player, handed]
      · rfl
  · split at h <;> cases h <;> rw [offered, written]
  · cases h; rfl
  · cases h; rfl
  · cases h; rfl
  · cases h

/-- A state at which a firing run stops, or goes on with a range that has begun without time, which no later one of the run
does (R162). -/
def State.RunGoesOnOnce (zeroBegun : Bool) (t : State × Bool) : Prop :=
  ¬ (t.1.player.state = .running ∧ t.1.player.countdown = 0) ∨ zeroBegun = false ∧ t.2 = true ∧ t.1.player.rangesOk

theorem State.beginRange_once (zeroBegun : Bool) (s : State) (ranges : s.player.rangesOk) :
    State.RunGoesOnOnce zeroBegun (s.beginRange zeroBegun) := by
  have marked : ∀ a b, (s.offerMark a b).player = s.player := fun a b => by
    obtain ⟨r, n, h⟩ := s.offerMark_frame a b
    rw [h]
  unfold State.beginRange State.RunGoesOnOnce
  simp only [State.onPlayer_player, marked]
  by_cases time : (passageAt s.player.passage s.player.segment.start).delta.toNat + s.player.gap = 0
  · cases zeroBegun
    · exact .inr ⟨rfl, by simp [time], ranges⟩
    · exact .inl fun h => by simp [time] at h
  · refine .inl fun h => time ?_
    have set := h.2
    rw [decide_eq_false time] at set
    exact set

theorem State.loadSegment_once (zeroBegun : Bool) (fuel : Nat) (s : State) (ranges : s.player.rangesOk)
    (enough : 33 ≤ s.player.skips + fuel) (some' : 1 ≤ fuel) :
    State.RunGoesOnOnce zeroBegun (s.loadSegment zeroBegun fuel) := by
  induction fuel generalizing s with
  | zero => omega
  | succ fuel ih =>
    unfold State.loadSegment
    split
    · exact .inl fun h => by cases h.1
    · rename_i n _
      simp only []
      split
      · split
        · exact .inl fun h => by cases h.1
        · rename_i few
          have few : ¬ 32 ≤ s.player.skips + 1 := few
          exact ih _ ranges (show 33 ≤ s.player.skips + 1 + fuel by omega) (by omega)
      · exact State.beginRange_once zeroBegun _ ⟨ranges.2 n, ranges.2⟩

/-- After a range's end the run stops, or goes on, once, with a range that begins without time (R162, R165). -/
theorem State.endRange_once (zeroBegun : Bool) (s : State) (ranges : s.player.rangesOk) :
    State.RunGoesOnOnce zeroBegun (s.endRange zeroBegun) := by
  unfold State.endRange
  split
  · exact State.beginRange_once zeroBegun _ ranges
  · split
    · exact State.beginRange_once zeroBegun _ ranges
    · exact State.loadSegment_once zeroBegun loadFuel _ ranges (by unfold loadFuel; omega) (by decide)

/-- The records a firing run can still fire: those from its slot on, and those of one more range unless it has begun. -/
def State.runLength (zeroBegun : Bool) (s : State) : Nat := max 1 (8192 - s.player.slot) + if zeroBegun then 0 else 8192

/-- More fuel than a firing run can use changes nothing. -/
theorem State.firingRun_fuel (fuel : Nat) (zeroBegun : Bool) (s : State) (ranges : s.player.rangesOk)
    (enough : s.runLength zeroBegun ≤ fuel) : s.firingRun (fuel + 1) zeroBegun = s.firingRun fuel zeroBegun := by
  induction fuel generalizing s zeroBegun with
  | zero => unfold State.runLength at enough; omega
  | succ fuel ih =>
    by_cases h : s.player.state = .running ∧ s.player.countdown = 0
    · rw [State.firingRun_fires _ _ _ h.1 h.2, State.firingRun_fires _ _ _ h.1 h.2]
      split
      · rfl
      · split
        · rfl
        · rename_i f fires
          have same := State.fireRecord_player _ _ _ fires
          have ranges : f.player.rangesOk := by rw [same]; exact ranges
          have slot : f.player.slot = s.player.slot := by rw [same]
          split
          · rename_i inside
            have last := ranges.1
            refine ih _ _ ranges ?_
            unfold State.runLength at enough ⊢
            simp only [State.onPlayer_player]
            omega
          · rcases f.endRange_once zeroBegun ranges with stops | ⟨rfl, begun, ranges⟩
            · rw [State.firingRun_stops _ _ _ stops, State.firingRun_stops _ _ _ stops]
            · refine ih _ _ ranges ?_
              rw [begun]
              unfold State.runLength at enough ⊢
              simp only [Bool.false_eq_true, if_false, if_true] at enough ⊢
              omega
    · rw [State.firingRun_stops _ _ _ h, State.firingRun_stops _ _ _ h]

/-- A firing run of full fuel that fires a record goes on as one of full fuel (R159). -/
theorem State.run_fires (zeroBegun : Bool) (s f : State) (ranges : s.player.rangesOk) (state : s.player.state = .running)
    (due : s.player.countdown = 0) (noWait : s.player.waitKey = none)
    (fires : s.fireRecord (passageAt s.player.passage s.player.slot) = some f) : s.firingRun runFuel zeroBegun =
      if f.player.slot + 1 < f.player.segment.start + f.player.segment.count then
        State.firingRun runFuel zeroBegun (f.onPlayer fun p => { p with
          slot := p.slot + 1, countdown := (passageAt p.passage (p.slot + 1)).delta.toNat + p.gap, gap := 0 })
      else State.firingRun runFuel (f.endRange zeroBegun).2 (f.endRange zeroBegun).1 := by
  have same := State.fireRecord_player _ _ _ fires
  have ranges : f.player.rangesOk := by rw [same]; exact ranges
  have length : ∀ (z : Bool) (t : State), t.runLength z ≤ 16389 := fun z t => by
    unfold State.runLength
    split <;> omega
  have full : ∀ (z : Bool) (t : State), t.player.rangesOk → t.firingRun 16389 z = t.firingRun runFuel z := fun z t h =>
    (State.firingRun_fuel 16389 z t h (length z t)).symm
  rw [show runFuel = 16389 + 1 from rfl, State.firingRun_fires _ _ _ state due, noWait, fires]
  simp only []
  split
  · exact full zeroBegun _ ranges
  · rcases f.endRange_once zeroBegun ranges with stops | ⟨-, -, ranges⟩
    · rw [State.firingRun_stops _ _ _ stops, State.firingRun_stops _ _ _ stops]
    · exact full _ _ ranges

/-! ### A chain of empty segments (R161) -/

/-- A load that skips a chain of empty segments goes on with the last one's next, or halts at the 32nd skip. -/
theorem State.loadSegment_chain (zeroBegun : Bool) (fuel more : Nat) (chain : Nat → Fin 32) (s : State)
    (begins : s.player.next = some (chain 0)) (empty : ∀ i ≤ more, s.player.segments[chain i].count = 0)
    (linked : ∀ i < more, s.player.segments[chain i].next = some (chain (i + 1))) (few : s.player.skips + more ≤ 31) :
    s.loadSegment zeroBegun (fuel + (more + 1)) =
      let t := s.onPlayer fun p => { p with skips := p.skips + more + 1, next := p.segments[chain more].next }
      if s.player.skips + more = 31 then (t.playerHalts .haltedChainEmpty, zeroBegun) else t.loadSegment zeroBegun fuel := by
  induction more generalizing s chain with
  | zero =>
    have one : ∀ n : Nat, n ≤ 31 → (32 ≤ n + 1 ↔ n = 31) := fun n h => by omega
    rw [State.loadSegment, begins]
    simp only [if_pos (empty 0 (Nat.le_refl 0))]
    simp only [State.onPlayer, Nat.add_zero, one _ few]
  | succ more ih =>
    rw [show fuel + (more + 1 + 1) = fuel + (more + 1) + 1 from rfl, State.loadSegment, begins]
    simp only [if_pos (empty 0 (Nat.zero_le _))]
    refine (if_neg (show ¬ 32 ≤ s.player.skips + 1 by omega)).trans ?_
    rw [ih (fun i => chain (i + 1)) (s.onPlayer fun p => { p with skips := p.skips + 1, next := s.player.segments[chain 0].next })
      (linked 0 (Nat.succ_pos _)) (fun i hi => empty (i + 1) (Nat.succ_le_succ hi))
      (fun i hi => linked (i + 1) (Nat.succ_lt_succ hi))
      (show s.player.skips + 1 + more ≤ 31 by omega)]
    have e : s.player.skips + 1 + more = s.player.skips + (more + 1) := by omega
    simp only [State.onPlayer, e]

/-! ### Ranges (R162) and the playback clearing (R166) -/

theorem State.offerMark_onPlayer (segment pass : Byte) (s : State) (f : Player → Player) :
    (s.offerMark segment pass).onPlayer f = (s.onPlayer f).offerMark segment pass := by
  unfold State.offerMark
  show State.onPlayer f _ = if s.recorder.recording then _ else _
  split
  · show _ = State.raiseIf (s.recorder.take s.perfClock (.mark segment pass)).2 _ _
    simp only []
    cases (s.recorder.take s.perfClock (.mark segment pass)).2 <;> rfl
  · rfl

/-- A range's beginning offers its MARK and sets the slot, the countdown and the gap (R162). -/
theorem State.beginRange_eq (zeroBegun : Bool) (s : State) (n : Fin 32) (seg : Segment) (h : s.player.copy = some (n, seg)) :
    s.beginRange zeroBegun =
      (let time := (passageAt s.player.passage seg.start).delta.toNat + s.player.gap
       ((s.onPlayer fun p => { p with
          slot := seg.start, satisfied := none, countdown := if time = 0 && zeroBegun then 1 else time, gap := 0 }).offerMark
            (BitVec.ofNat 8 n.val) (BitVec.ofNat 8 s.player.pass), zeroBegun || decide (time = 0))) := by
  unfold State.beginRange
  simp only [h, Player.segment, Option.map_some, Option.getD_some, State.offerMark_onPlayer]

/-- A list of PLAYBACK RELEASEs handed over one after the other: all reach the Voice Engine, and all are offered. -/
theorem State.handReleases_eq (keys : List Key) (level : Byte) (s : State) :
    keys.foldl (fun s k => s.handPlayback (.release k level)) s
      = (keys.map fun k => RecorderEvent.release k level).foldl (fun u e => u.offer .playback e) (s.onVoice fun v => { v with
          playbackRequests := v.playbackRequests ++ keys.map fun k => NoteRequest.release k level }) := by
  induction keys generalizing s with
  | nil => simp [State.onVoice]
  | cons k rest ih =>
    rw [List.foldl_cons, ih]
    simp only [State.handPlayback, State.offer_onVoice, List.map_cons, List.foldl_cons]
    refine congrArg (fun v => List.foldl _ (State.offer _ _ v) _) ?_
    simp [State.onVoice]

/-- The playback clearing (R166): the held keys' RELEASEs of level 64 are handed over and offered, the player's sets and times
are emptied, and the playback pedals are at rest. -/
theorem State.playbackClearing_eq (s : State) : s.playbackClearing
    = (s.player.held.map fun k => RecorderEvent.release k 64).foldl (fun u e => u.offer .playback e)
        (((s.onVoice fun v => { v with
            playbackRequests := v.playbackRequests ++ s.player.held.map fun k => NoteRequest.release k 64 }).onPlayer
          fun p => { p with held := [], expected := [], tempo := none, countdown := 0, gap := 0 }).clearPlaybackPedals) := by
  simp only [State.playbackClearing, State.handReleases_eq]
  obtain ⟨r, n, h⟩ := s.offers_spec .playback (s.player.held.map fun k => RecorderEvent.release k 64)
  rw [h (s.onVoice _) rfl rfl rfl]
  refine Eq.symm ((h _ ?_ ?_ ?_).trans ?_) <;> rfl

end Sys2Proof.Machine
end

