-- ==== Sys2Proof/Laws/WaveFetch.lean ====
section
/-! SUPPORT. The choice of the port's arbiter among the requesting voices (R119), and what a fetch leaves in its voice and buffer (R117). -/

namespace Sys2Proof.Machine

/-- One voice's part in the arbiter's search. -/
def WaveUnit.needier (w : WaveUnit) (best : Option VoiceIx) (i : VoiceIx) : Option VoiceIx :=
  if w.buffers[i].requesting then
    match best with
    | none => some i
    | some j => if w.buffers[i].samples.length < w.buffers[j].samples.length then some i else best
  else best

/-- What the arbiter's search finds: of the voices searched and the best so far, the requesting one with the fewest samples,
the first among equals. -/
theorem WaveUnit.neediest_fold (w : WaveUnit) (voices : List VoiceIx) (up : voices.Pairwise (· < ·)) (best : Option VoiceIx)
    (before : ∀ j, best = some j → w.buffers[j].requesting = true ∧ ∀ i ∈ voices, j < i) :
    (∀ i, voices.foldl w.needier best = some i → w.buffers[i].requesting = true
      ∧ (i ∈ voices ∨ best = some i)
      ∧ ∀ j, j ∈ voices ∨ best = some j → w.buffers[j].requesting = true →
        w.buffers[i].samples.length < w.buffers[j].samples.length
          ∨ w.buffers[i].samples.length = w.buffers[j].samples.length ∧ i ≤ j)
    ∧ (voices.foldl w.needier best = none → best = none ∧ ∀ j ∈ voices, w.buffers[j].requesting = false) := by
  induction voices generalizing best with
  | nil =>
    refine ⟨fun i h => ?_, fun h => ⟨h, by simp⟩⟩
    simp only [List.foldl_nil] at h
    refine ⟨(before i h).1, .inr h, fun j hj _ => ?_⟩
    simp only [List.not_mem_nil, false_or, h, Option.some.injEq] at hj
    exact .inr ⟨by rw [hj], hj.le⟩
  | cons a rest ih =>
    rw [List.pairwise_cons] at up
    simp only [List.foldl_cons]
    by_cases ha : w.buffers[a].requesting = true
    · cases best with
      | none =>
        have e : w.needier none a = some a := if_pos ha
        obtain ⟨h1, h2⟩ := ih up.2 (some a) (fun j hj => by cases hj; exact ⟨ha, up.1⟩)
        rw [e]
        refine ⟨fun i hi => ?_, fun h => by simpa using (h2 h).1⟩
        obtain ⟨r, m, l⟩ := h1 i hi
        refine ⟨r, .inl ?_, fun j hj => l j ?_⟩
        · rcases m with m | m
          · exact .tail _ m
          · cases m; exact .head _
        · rcases hj with hj | hj
          · rcases List.mem_cons.1 hj with rfl | hj
            · exact .inr rfl
            · exact .inl hj
          · cases hj
      | some b =>
        obtain ⟨hb, below⟩ := before b rfl
        by_cases lt : w.buffers[a].samples.length < w.buffers[b].samples.length
        · have e : w.needier (some b) a = some a := by simp only [WaveUnit.needier, ha, if_true, if_pos lt]
          obtain ⟨h1, h2⟩ := ih up.2 (some a) (fun j hj => by cases hj; exact ⟨ha, up.1⟩)
          rw [e]
          refine ⟨fun i hi => ?_, fun h => by simpa using (h2 h).1⟩
          obtain ⟨r, m, l⟩ := h1 i hi
          refine ⟨r, .inl ?_, fun j hj hr => ?_⟩
          · rcases m with m | m
            · exact .tail _ m
            · cases m; exact .head _
          · rcases hj with hj | hj
            · rcases List.mem_cons.1 hj with rfl | hj
              · exact l j (.inr rfl) hr
              · exact l j (.inl hj) hr
            · cases hj
              have := l a (.inr rfl) ha
              exact .inl (by omega)
        · have e : w.needier (some b) a = some b := by simp only [WaveUnit.needier, ha, if_true, if_neg lt]
          obtain ⟨h1, h2⟩ := ih up.2 (some b) (fun j hj => by cases hj; exact ⟨hb, fun i hi => below i (.tail _ hi)⟩)
          rw [e]
          refine ⟨fun i hi => ?_, fun h => by simpa using (h2 h).1⟩
          obtain ⟨r, m, l⟩ := h1 i hi
          refine ⟨r, m.imp (.tail _) id, fun j hj hr => ?_⟩
          rcases hj with hj | hj
          · rcases List.mem_cons.1 hj with rfl | hj
            · have := l b (.inr rfl) hb
              have := below j (.head _)
              rcases ‹_ ∨ _› with h | ⟨h, h'⟩
              · exact .inl (by omega)
              · rcases Nat.eq_or_lt_of_le (not_lt.1 lt) with h'' | h''
                · exact .inr ⟨by omega, h'.trans this.le⟩
                · exact .inl (by omega)
            · exact l j (.inl hj) hr
          · exact l j (.inr hj) hr
    · have e : w.needier best a = best := by simp only [WaveUnit.needier, if_neg ha]
      obtain ⟨h1, h2⟩ := ih up.2 best (fun j hj => ⟨(before j hj).1, fun i hi => (before j hj).2 i (.tail _ hi)⟩)
      rw [e]
      refine ⟨fun i hi => ?_, fun h => ⟨(h2 h).1, fun j hj => ?_⟩⟩
      · obtain ⟨r, m, l⟩ := h1 i hi
        refine ⟨r, m.imp (.tail _) id, fun j hj hr => ?_⟩
        rcases hj with hj | hj
        · rcases List.mem_cons.1 hj with rfl | hj
          · exact absurd hr ha
          · exact l j (.inl hj) hr
        · exact l j (.inr hj) hr
      · rcases List.mem_cons.1 hj with rfl | hj
        · simpa using ha
        · exact (h2 h).2 j hj

/-- The arbiter's voice (R119): the requesting one with the fewest samples held, the lowest-numbered among equals. -/
theorem WaveUnit.neediest_eq_some (w : WaveUnit) (i : VoiceIx) (asks : w.buffers[i].requesting = true)
    (least : ∀ j : VoiceIx, w.buffers[j].requesting = true → w.buffers[i].samples.length < w.buffers[j].samples.length
      ∨ w.buffers[i].samples.length = w.buffers[j].samples.length ∧ i ≤ j) : w.neediest = some i := by
  have e : w.neediest = allVoices.foldl w.needier none := rfl
  have all : ∀ j : VoiceIx, j ∈ allVoices := fun j => by simp [allVoices]
  obtain ⟨h1, h2⟩ := w.neediest_fold allVoices (List.pairwise_lt_finRange 96) none nofun
  rw [e]
  cases h : allVoices.foldl w.needier none with
  | none => exact absurd asks (by rw [(h2 h).2 i (all i)]; exact Bool.false_ne_true)
  | some j =>
    obtain ⟨r, -, l⟩ := h1 j h
    have a := l i (.inl (all i)) asks
    have b := least j r
    have : i.val ≤ j.val ∧ j.val ≤ i.val := by
      rcases a with a | ⟨a, a'⟩ <;> rcases b with b | ⟨b, b'⟩
      · omega
      · omega
      · omega
      · exact ⟨b', a'⟩
    exact congrArg some (Fin.ext (by omega))

/-- With no voice requesting, the arbiter finds none (R119). -/
theorem WaveUnit.neediest_eq_none (w : WaveUnit) (h : ∀ i : VoiceIx, w.buffers[i].requesting = false) : w.neediest = none := by
  obtain ⟨h1, -⟩ := w.neediest_fold allVoices (List.pairwise_lt_finRange 96) none nofun
  rw [show w.neediest = allVoices.foldl w.needier none from rfl]
  cases h' : allVoices.foldl w.needier none with
  | none => rfl
  | some j => exact absurd (h1 j h').1 (by rw [h j]; exact Bool.false_ne_true)

/-! ### A fetch taken (R117) -/

/-- The samples of a whole number of byte pairs. -/
theorem samplesOf_eq (n : Nat) (data : List Byte) (h : data.length = 2 * n) : samplesOf data = (List.range n).map fun n =>
    (BitVec.ofNat 16 ((data.getD (2 * n) 0).toNat + 256 * (data.getD (2 * n + 1) 0).toNat)).toInt := by
  induction n generalizing data with
  | zero =>
    rw [List.length_eq_zero_iff.1 h]
    rfl
  | succ n ih =>
    match data, h with
    | a :: b :: rest, h =>
      rw [samplesOf, ih rest (by simpa [Nat.mul_succ] using h), List.range_succ_eq_map, List.map_cons, List.map_map]
      congr 2
      apply BitVec.eq_of_toNat_eq
      have := b.isLt
      simp only [half, BitVec.toNat_append]
      rw [← Nat.shiftLeft_add_eq_or_of_lt a.isLt]
      simp [Nat.shiftLeft_eq]
      omega

/-- A buffer that has taken the samples of its fetch, field by field. -/
theorem Buffer.take_eq (z : ZoneEntry) (samples : List Int) (b : Buffer) : b.take z samples =
    let position := b.fetchPosition + samples.length
    { samples := b.samples ++ samples
      fetchPosition := if z.length ≤ position ∧ z.loop = true then z.loopStart else position
      endFetched := b.endFetched || (decide (z.length ≤ position) && !z.loop)
      requesting := b.requesting
      inFlight := false } := by
  unfold Buffer.take
  by_cases a : z.length ≤ b.fetchPosition + samples.length <;> cases c : z.loop <;> simp [a]

/-- A fetch whose tag matches: its buffer has taken the samples and had the refill condition examined, and its voice has had
its priming report if that is due (R95, R115, R117). -/
theorem State.fetchTaken_eq (i : VoiceIx) (data : List Byte) (s : State) : s.fetchTaken i data =
    let v := s.voice.voices[i]
    let b := s.wave.buffers[i].take (s.zoneOf v) (samplesOf data)
    let w := if v.primed = false ∧ (32 ≤ b.samples.length ∨ b.endFetched = true)
      then (if v.state = .priming then s.holdTest { v with primed := true } else { v with primed := true }) else v
    (s.onVoice fun e => { e with voices := e.voices.set i w }).onWave fun u => { u with
      buffers := u.buffers.set i { b with requesting := refillNeeded w b } } := by
  have e : s.storeFetch i data = s.onWave fun u => { u with
      buffers := u.buffers.set i (s.wave.buffers[i].take (s.zoneOf s.voice.voices[i]) (samplesOf data)) } := rfl
  simp only [State.fetchTaken, e]
  generalize s.wave.buffers[i].take (s.zoneOf s.voice.voices[i]) (samplesOf data) = b
  have due : State.primingDue i (s.onWave fun u => { u with buffers := u.buffers.set i b }) = true
      ↔ s.voice.voices[i].primed = false ∧ (32 ≤ b.samples.length ∨ b.endFetched = true) := by
    simp [State.primingDue, State.onWave]
  by_cases h : s.voice.voices[i].primed = false ∧ (32 ≤ b.samples.length ∨ b.endFetched = true)
  · rw [if_pos (due.2 h), if_pos h]
    simp [State.primingReport, State.examineRefill, State.onWave, State.onVoice, updateAt]
    exact ⟨rfl, rfl⟩
  · rw [if_neg (mt due.1 h), if_neg h]
    simp [State.examineRefill, State.onWave, State.onVoice, updateAt]

end Sys2Proof.Machine
end

