-- ==== Sys2Proof/WellFormed.lean ====
section
/-! DEFINITION. Which terms of Instr a frame or an arrival can carry. The meanings are total: a term that is not well formed still has one. -/

namespace Sys2Proof

/-- The most payload bytes a frame can carry: LEN is at most 255 and counts the KIND byte (R176). -/
def maxPayload : Nat := 254

/-- The operands of a command are ones its frame, or its arrival on the wave store port, can carry. -/
def Instr.wf : Instr → Bool
  | .setRegulation _ count entries => entries.length = count.toNat && count.toNat ≤ 21
  | .writePassage _ count records => records.length = count.toNat && count.toNat ≤ 62
  | .unknownKind kind payload => !isKind kind && payload.length ≤ maxPayload
  | .fetchArrival data => data.length % 2 = 0 && 2 ≤ data.length && data.length ≤ 64
  | .loadReadArrival data => data.length = 8 || (data.length % 16 = 0 && 16 ≤ data.length && data.length ≤ 128)
  | .diagnosticReadArrival data => 1 ≤ data.length && data.length ≤ 128
  | _ => true

end Sys2Proof
end

