-- ==== Sys2Proof/Tests/Slice0.lean ====
section
/-! SUPPORT. Tests: the well-formedness smoke, the manual's worked cases (the source of each is named), and for every obligation with hypotheses a state and operands that meet them. -/

set_option Elab.async false

namespace Sys2Proof.Tests

open Sys2Proof.Machine

/-! ### Well-formedness: an ill-formed term for each check, refused -/

def someEntry : RegFields := ⟨0, 60, 450, 40, 256, 0, 1⟩

theorem test_wf_refuses_entry_count : (Instr.setRegulation 0 2 [someEntry]).wf = false := by decide
theorem test_wf_refuses_too_many_entries : (Instr.setRegulation 0 22 (List.replicate 22 someEntry)).wf = false := by
  decide +kernel
theorem test_wf_refuses_record_count : (Instr.writePassage 0 2 [⟨0, 0, 0, 0⟩]).wf = false := by decide
theorem test_wf_refuses_too_many_records : (Instr.writePassage 0 63 (List.replicate 63 ⟨0, 0, 0, 0⟩)).wf = false := by
  decide +kernel
theorem test_wf_refuses_known_kind : (Instr.unknownKind 0x10 []).wf = false := by decide
theorem test_wf_refuses_long_payload : (Instr.unknownKind 0x0A (List.replicate 255 0)).wf = false := by decide +kernel
theorem test_wf_refuses_odd_fetch : (Instr.fetchArrival [1]).wf = false := by decide
theorem test_wf_refuses_empty_fetch : (Instr.fetchArrival []).wf = false := by decide
theorem test_wf_refuses_long_fetch : (Instr.fetchArrival (List.replicate 66 0)).wf = false := by decide
theorem test_wf_refuses_load_length : (Instr.loadReadArrival (List.replicate 12 0)).wf = false := by decide
theorem test_wf_refuses_empty_load : (Instr.loadReadArrival []).wf = false := by decide
theorem test_wf_refuses_long_load : (Instr.loadReadArrival (List.replicate 144 0)).wf = false := by decide +kernel
theorem test_wf_refuses_empty_diagnostic : (Instr.diagnosticReadArrival []).wf = false := by decide
theorem test_wf_refuses_long_diagnostic : (Instr.diagnosticReadArrival (List.replicate 129 0)).wf = false := by
  decide +kernel
theorem test_wf_accepts : (Instr.setRegulation 0 1 [someEntry]).wf = true ∧ (Instr.unknownKind 0x0A []).wf = true
    ∧ (Instr.fetchArrival (List.replicate 64 0)).wf = true ∧ (Instr.loadReadArrival (List.replicate 8 0)).wf = true := by
  decide

/-! ### Worked cases of the manual -/

/-- The frame of 10.1: D5, 01, 20, F5 asks for the pedal state. -/
theorem test_frame : frame Request.getPedalState.body = [0xD5#8, 0x01#8, 0x20#8, 0xF5#8] := by decide +kernel

/-- The bytes of SET PEDAL MAP with contact 200 and full 800, least significant byte first (11.3). -/
theorem test_request_bytes : parseBody [0x21#8, 0xC8#8, 0x00#8, 0x20#8, 0x03#8] = .request (.setPedalMap 200 800) := by
  decide

/-- No row of the table gives bits. -/
theorem test_no_word : decodeTableWord 8 0x20 = none ∧ State.reset.withFetchWord 8 0x20 = State.reset := ⟨rfl, rfl⟩

/-- The speeds of R31's table. -/
theorem test_speeds : [(1, 511), (292, 256), (293, 256), (294, 256), (500, 256), (1600, 256), (30000, 256), (40000, 511),
    (40000, 256), (40000, 128)].map (fun p => hammerSpeed p.1 p.2)
      = [1023, 1023, 1023, 1020, 600, 187, 10, 14, 7, 3] := by decide

/-- The curve levels of R38's table, on the default curve. -/
theorem test_curve_levels : [3, 10, 160, 187, 251, 600, 1023].map (curveLevel TouchUnit.reset.curve)
    = [2, 4, 74, 81, 98, 117, 127] := by decide

/-- The trims of R39's table. -/
theorem test_trims : [(98, -3), (1, -16), (4, -5), (127, 15), (120, 10), (117, 10)].map
    (fun p : Nat × Int => trimmedLevel p.1 p.2) = [95, 1, 1, 127, 127, 127] := by decide

/-- The gains of R41's table. -/
theorem test_gains : [1, 2, 8, 32, 64, 84, 95, 100, 127].map gainOf = [0, 1, 16, 260, 1040, 1791, 2291, 2539, 4096] := by
  decide

/-- The strike of 2.9: interval 1,250, gap scale 268, trim -3. -/
theorem test_touch_level : touchLevel { RegEntry.reset with gapScale := 268, trim := -3 } TouchUnit.reset.curve 1250 = 95 := by
  decide

/-- The limits of 2.10. -/
theorem test_touch_limits : [(0, 511, 15), (1, 256, -16), (40000, 128, 0), (40000, 128, -16), (40000, 511, 15),
    (30000, 256, 0)].map (fun p : Nat × Nat × Int =>
      touchLevel { RegEntry.reset with gapScale := p.2.1, trim := p.2.2 } TouchUnit.reset.curve p.1)
    = [127, 111, 2, 1, 20, 4] := by decide

/-- The lifts of R44's table, on the default map. -/
theorem test_lifts : [150, 200, 203, 500, 797, 799, 800].map (liftOf ⟨200, 800⟩) = [0, 0, 1, 127, 253, 254, 255] := by
  decide

/-- The sostenuto filter of R46's table: the count and the state after each scan, a due confirmation taken. -/
theorem test_sostenuto_filter : ([540, 565, 570, 480, 575, 580, 590, 500, 455, 470].foldl
    (fun (p : ScanFilter × List ScanFilter) raw =>
      let f := ScanFilter.step (sostenutoMeets p.1.on raw) p.1
      let f := if f.due then f.confirm else f
      (f, p.2 ++ [f])) (⟨false, 0⟩, [])).2
    = [⟨false, 0⟩, ⟨false, 1⟩, ⟨false, 2⟩, ⟨false, 0⟩, ⟨false, 1⟩, ⟨false, 2⟩, ⟨true, 0⟩, ⟨true, 0⟩, ⟨true, 1⟩,
      ⟨true, 0⟩] := by decide

/-- The una corda depths and values of R47's table. -/
theorem test_una_corda : [0, 20, 21, 600, 1020, 1023].map (fun t => (liveDepth t, liveUnaCorda t,
    playbackDepth (liveUnaCorda t)))
    = [(0, 0, 0), (0, 5, 1), (1, 5, 1), (29, 150, 30), (50, 255, 51), (51, 255, 51)] := by decide

/-- The damper offers of R52's table: the reference after each scan. -/
theorem test_damper_offers : [5, 9, 14, 17, 250, 255, 249, 12, 3, 0].foldl (fun (refs : List Nat × Nat) lift =>
      let s := State.offerDamper { State.reset with pedals := { PedalUnit.reset with
        live := { PedalUnit.reset.live with lift := lift }, refLift := refs.2 } }
      (refs.1 ++ [s.pedals.refLift], s.pedals.refLift)) ([], 0)
    = ([0, 9, 9, 17, 250, 255, 255, 12, 3, 0], 0) := by decide +kernel

/-- The travel limits of R75's table. -/
theorem test_travel_limits : [(840, 910), (905, 905), (110, 96), (1480, 2150)].map (fun p => limitOf p.1 p.2)
    = [1365, 1357, 200, 3000] := by decide

/-- The sounding levels of R88's table. -/
theorem test_sounding_levels : [(95, 0), (95, 29), (127, 0), (127, 51), (5, 51), (2, 51), (1, 51)].map
    (fun p => (soundingLevel p.1 p.2, gainOf (soundingLevel p.1 p.2)))
    = [(95, 2291), (84, 1791), (127, 4096), (101, 2590), (4, 4), (1, 0), (1, 0)] := by decide

/-- The damping rates of R99's table. -/
theorem test_damping_rates : [(64, 0), (80, 0), (0, 0), (64, 127), (127, 200), (64, 250), (0, 254)].map
    (fun p => dampingRate p.1 p.2) = [4096, 4608, 2048, 2056, 1318, 80, 8] := by decide

/-- The fade of R100's table. -/
theorem test_fade : [65535, 49152, 36864, 8748, 877, 279, 90, 68].map
    (fun e => (envelopeStep 0 { Voice.reset with state := .fading, e := e }).e)
    = [49152, 36864, 27648, 6561, 658, 210, 68, 51] := by decide

/-- The damping of 5.14: release level 80, lift 0. -/
theorem test_damping : [65535, 60928].map
    (fun e => (envelopeStep 0 { Voice.reset with state := .damping, release := 80, e := e }).e) = [60928, 56644] := by decide

/-- The voice outputs of R102's table. The row of w = 32,767 is R102's formula worked by hand, 2,147,385,345 / 256 =
8,388,224.0039, where the table prints 8,388,223.99 (notes/assumptions/27.md). -/
theorem test_voice_outputs : voiceOutput (-32768) 4096 65535 = -8388480 ∧ voiceOutput 32767 4096 65535 = 8388224
    ∧ voiceOutput 12000 1791 32768 = 671625 ∧ voiceOutput (-1001) 1791 32768 = -56024 ∧ voiceOutput 20000 0 65535 = 0 := by
  decide

/-- The victims of 5.15: voice 40, then without the FADING voices voice 31, then without the DAMPING ones voice 9. -/
theorem test_victims :
    let full : State := { State.reset with perfClock := 2000, voice := { VoiceEngine.reset with
      voices := Vector.ofFn fun i : VoiceIx => { Voice.reset with
        state := .sounding, e := 65535, start := if i.val = 9 ∨ i.val = 58 then 1204 else 1990 } } }
    let put := fun (i : VoiceIx) (st : VoiceState) (e : Nat) (start : Time) (s : State) =>
      s.onVoice fun v => { v with voices := updateAt i (fun w => { w with state := st, e := e, start := start }) v.voices }
    let damped := put 31 .damping 412 1600 (put 63 .damping 412 1420 (put 58 .priming 65535 1204 full))
    (put 17 .fading 3000 1950 (put 40 .fading 1200 1980 damped)).victim = 40 ∧ damped.victim = 31
      ∧ (put 58 .priming 65535 1204 full).victim = 9 := by decide +kernel

/-- The pan positions of R127's table. -/
theorem test_pan : [0, 27, 39, 44, 60, 87].map (fun k : Key => panOf k) = [0, 39, 56, 64, 87, 126] := by decide

/-- The frame of 7.9: the buses' shares and the channels' sides. -/
theorem test_mix : leftShare 671625 39 = 377789 ∧ rightShare 671625 39 = 293835 ∧ leftShare (-56024) 27 = -38954
    ∧ rightShare (-56024) 27 = -17069
    ∧ channelSide ⟨⟨128, 128⟩, ⟨128, 128⟩⟩ 377789 (-38954) = 338835
    ∧ channelSide ⟨⟨128, 128⟩, ⟨96, 96⟩⟩ 377789 (-38954) = 348574
    ∧ channelSide ⟨⟨128, 128⟩, ⟨96, 96⟩⟩ 293835 (-17069) = 281034 := by decide

/-- The saturation of 7.10. -/
theorem test_saturation : saturate 9120400 = 8388607 ∧ channelSide ⟨⟨255, 255⟩, ⟨0, 0⟩⟩ 8388607 0 = 8388607
    ∧ channelSide ⟨⟨128, 128⟩, ⟨128, 128⟩⟩ 8388607 0 = 8388607 := by decide

/-- The delta table of R139: the records written for a remaining time. -/
theorem test_deltas : [0, 255, 256, 1470, 65791, 65792, 70000].map (fun n =>
      ((({ Recorder.reset with recording := true, blockA := ⟨.active, []⟩ } : Recorder).take (BitVec.ofNat 32 n)
        (.strike 39 70)).1).blockA.records)
    = [[⟨1, 39, 70, 0⟩], [⟨1, 39, 70, 255⟩], [gapRecord 256, ⟨1, 39, 70, 0⟩], [gapRecord 1470, ⟨1, 39, 70, 0⟩],
      [gapRecord 65535, gapRecord 256, ⟨1, 39, 70, 0⟩], [gapRecord 65535, gapRecord 257, ⟨1, 39, 70, 0⟩],
      [gapRecord 65535, gapRecord 4465, ⟨1, 39, 70, 0⟩]] := by decide +kernel

/-- The reloads of R158's table. -/
theorem test_reloads : [(100, 100), (75, 100), (80, 130), (33, 90), (25, 50), (200, 150)].map
    (fun p => reloadOf (effectiveTempo p.1 p.2)) = [1000, 1333, 961, 3448, 4000, 500] := by decide

/-! ### Worked sequences, one step each -/

/-- The state a step answers. -/
def after (c : Instr) (s : State) : State :=
  match exec c s with
  | .next t => t
  | _ => s

/-- A part that has started up: READY, quiet, the rail OPEN, the zone table settled, the slot EMPTY. -/
def live : State := { State.reset with
  scanner := { Scanner.reset with ready := true, settle := none, quiet := true }
  rail := { Rail.reset with state := .opened, switchOpen := ⟨true, 0⟩ }
  wave := { WaveUnit.reset with load := none, port := none }
  link := { Link.reset with slot := .empty } }

/-- One key's record in that state, and how many hammers are off LOW. -/
def withKey (key : Key) (r : KeyRecord) (flying : Nat) (s : State) : State :=
  s.onScanner fun c => { c with keys := c.keys.set key r, flightCount := flying, quiet := flying = 0 && c.quiet }

/-- Key 39 of 1.13 at 12,002, its G1 crossing due. -/
def rising : KeyRecord := { KeyRecord.reset with
  phase := .travel, zone := .mid, travel := 75, g1 := ⟨false, 3⟩, g2 := ⟨true, 0⟩, g2Stamp := some ⟨10400, false, false⟩ }

def risingState : State := withKey 39 rising 1 { live with actionClock := 12002 }

/-- 1.13: STRIKE 39, level 81, strike_stamp 12,000. -/
theorem test_strike : (after (.gateCrossing 39 .g1) risingState).voice.liveRequests = [.strike 39 81]
    ∧ (after (.gateCrossing 39 .g1) risingState).scanner.keys[39].strikeStamp = some ⟨12000, false⟩ := by decide +kernel

/-- 1.13 at 53,102: RELEASE 39, level 45, then STRIKE 39, level 102. -/
theorem test_repetition : (after (.gateCrossing 39 .g1) (withKey 39 { rising with
      phase := .rearmed, g2Stamp := some ⟨52000, false, false⟩, strikeStamp := some ⟨12000, true⟩, lastRelease := 45 } 1
      { live with actionClock := 53102 })).voice.liveRequests = [.release 39 45, .strike 39 102] := by decide +kernel

/-- 1.14: 14,000 µs after a strike the crossing is a rebound while the rail is CLOSED, and a strike while it is OPEN. -/
theorem test_guard :
    let s := withKey 50 { rising with
      phase := .rearmed, g2Stamp := some ⟨113500, false, false⟩, strikeStamp := some ⟨100000, false⟩ } 1
      { live with actionClock := 114002 }
    (after (.gateCrossing 50 .g1) s).voice.liveRequests.length = 2
      ∧ (after (.gateCrossing 50 .g1) (s.onRail fun r => { r with state := .closed })).scanner.keys[50].rebound = 1
      ∧ (after (.gateCrossing 50 .g1) (s.onRail fun r => { r with state := .closed })).voice.liveRequests = [] := by
  decide +kernel

/-- The samples of a scan that reads key 39 at a travel of its own and everything else at rest. -/
def samplesAt (travel : Sample) : ScanSamples :=
  ⟨(Vector.replicate 88 0).set 39 travel, 0, 0, 0, true, false, false⟩

/-- 1.13 at 44,750: travel 430 after 610 four scans before re-arms the key with release level 45; at 90,250 travel 30 after
350 ends the stroke with RELEASE 39, level 80. -/
theorem test_scan :
    let s := withKey 39 { KeyRecord.reset with phase := .struck, travel := 500, history := #v[700, 610, 580, 540, 500] } 0 live
    (after (.scan (samplesAt 430)) s).scanner.keys[39].phase = .rearmed
      ∧ (after (.scan (samplesAt 430)) s).scanner.keys[39].lastRelease = 45
      ∧ (after (.scan (samplesAt 30)) (withKey 39 { KeyRecord.reset with
          phase := .struck, travel := 100, history := #v[400, 350, 300, 200, 100] } 0 live)).voice.liveRequests
        = [.release 39 80] := by decide +kernel

/-- 1.13 at 10,402: the third agreeing sample makes the G2 crossing due, and it is stamped 10,400. -/
theorem test_gate_sample :
    let s := withKey 39 { KeyRecord.reset with phase := .travel, g2 := ⟨false, 2⟩ } 0 { live with actionClock := 10401 }
    let t := after (.gateSample 0 (BitVec.twoPow 88 39)) s
    t.scanner.keys[39].g2 = ⟨false, 3⟩ ∧ (after (.gateCrossing 39 .g2) t).scanner.keys[39].g2Stamp = some ⟨10400, false, false⟩
      ∧ (after (.gateCrossing 39 .g2) t).scanner.keys[39].zone = .mid := by decide +kernel

/-- A rail under way from OPEN to CLOSED (4.13). -/
def movingState : State := live.onRail fun r =>
  { r with state := .moving, target := .closed, origin := some .opened, drive := some ⟨.closed, 70⟩, moveTimer := some 1175
           switchOpen := ⟨false, 0⟩ }

/-- 4.13 at 1,340: the G2 report of key 61 reverses the move. -/
theorem test_collision :
    let s := withKey 61 { KeyRecord.reset with phase := .travel, g2 := ⟨false, 3⟩ } 0 movingState
    let r := (after (.gateCrossing 61 .g2) s).rail
    (r.state, r.attempts, r.drive, r.moveTimer) = (.returning .retry, 1, some ⟨.opened, 70⟩, some 1500) := by decide +kernel

/-- 4.13 at 2,530: the arrival at CLOSED stops the drive and raises RAIL_DONE. -/
theorem test_arrival :
    let t := after (.endSwitchConfirmed .closed) (movingState.onRail fun r => { r with switchClosed := ⟨false, 3⟩ })
    t.rail.state = .closed ∧ t.rail.drive = none ∧ t.isPending .railDone = true := by decide +kernel

/-- 4.14: the third collision's return to CLOSED gives the move up. -/
theorem test_giveup :
    let s := movingState.onRail fun r => { r with
      state := .returning .retry, target := .opened, origin := some .closed, attempts := 3, switchClosed := ⟨false, 3⟩ }
    (after (.endSwitchConfirmed .closed) s).rail.state = .closed
      ∧ (after (.endSwitchConfirmed .closed) s).isPending .railGiveup = true := by decide +kernel

/-- 4.15 at 5,870: closing time 870. -/
theorem test_calibration_leg :
    let s := { live with perfClock := 5870, rail := { live.rail with
      state := .calibrating .closing, origin := some .opened, switchOpen := ⟨false, 0⟩, switchClosed := ⟨false, 3⟩
      legStart := 5000 }, scanner := { live.scanner with quiet := false }, link := { live.link with slot := .running .railCalibrate } }
    let r := (after (.endSwitchConfirmed .closed) s).rail
    (r.state, r.drive, r.legClosing) = (.calibrating .waitOpen, none, 870) := by decide +kernel

/-- Key 27's two zones of 5.13 at entries 0 and 1, and key 39's. -/
def zones : List ZoneEntry :=
  [⟨27, 1, 84, true, 1000, 640, 600⟩, ⟨27, 85, 127, true, 3000, 640, 600⟩, ⟨39, 1, 127, true, 5000, 640, 600⟩]

/-- 5.13: a LIVE strike at level 95 under u 29 plays the softer zone at gain 1,791, a PLAYBACK one the louder at 2,291. -/
theorem test_una_corda_zones :
    let s := { live with
      voice := { VoiceEngine.reset with
        acousticLayer := true, liveRequests := [.strike 27 95], playbackRequests := [.strike 27 95] }
      pedals := { PedalUnit.reset with live := { PedalUnit.reset.live with u := 29 } }
      wave := { live.wave with zones := zones } }
    let v := (after (.voiceStrike .live 27 95) s).voice.voices[0]
    let w := (after (.voiceStrike .playback 27 95) s).voice.voices[0]
    (v.level, v.gain, v.zone, w.level, w.gain, w.zone) = (84, 1791, 0, 95, 2291, 1) := by decide +kernel

/-- 5.14 at 140 ms: the sounding voice 4 fades and voice 5 takes the strike of level 102. -/
theorem test_restrike :
    let s := { live with
      perfClock := 140
      rail := { live.rail with state := .closed }
      voice := { VoiceEngine.reset with
        liveRequests := [.strike 39 102]
        voices := Vector.ofFn fun i : VoiceIx => if i.val < 4 then { Voice.reset with state := .sounding, e := 65535 }
          else if i.val = 4 then { Voice.reset with state := .sounding, key := 39, e := 65535, hold := .source }
          else { Voice.reset with generation := 7 } }
      wave := { live.wave with zones := zones } }
    let t := after (.voiceStrike .live 39 102) s
    t.voice.voices[4].state = .fading ∧ t.voice.voices[5] = ⟨.priming, 39, .live, 102, 2642, 2, 0, 65535, 64, 140, 8, false,
      .none⟩ := by decide +kernel

/-- R97: a RELEASE of level 80 sets the release level of the key's voice; R94 and R98: the tick then damps it. -/
theorem test_release :
    let s := { live with voice := { VoiceEngine.reset with
      liveRequests := [.release 39 80]
      voices := (Vector.replicate 96 Voice.reset).set 5 { Voice.reset with state := .sounding, key := 39, e := 65535 } } }
    let t := after (.voiceRelease .live 39 80) s
    t.voice.voices[5].release = 80 ∧ (after .envelopeTick t).voice.voices[5].state = .damping
      ∧ (after .envelopeTick t).voice.voices[5].e = 60928 := by decide +kernel

/-- R89, R87: a strike with no zone, and a strike while the table loads. -/
theorem test_strike_without_sound :
    let s := live.onVoice fun v => { v with acousticLayer := true, liveRequests := [.strike 39 80] }
    (after (.voiceStrike .live 39 80) s).voice.noZone = 1
      ∧ (after (.voiceStrike .live 39 80) (s.onWave fun w => { w with load := some ⟨none, 0, 0, 0, false⟩ })).voice.notReady
        = 1 := by decide +kernel

/-- Voice 5 of 6.9, PRIMING, its first fetch on the port. -/
def fetching : State := { live with
  voice := { VoiceEngine.reset with voices := (Vector.replicate 96 Voice.reset).set 5 { Voice.reset with
    state := .priming, key := 39, zone := 2, generation := 8, e := 65535 } }
  wave := { live.wave with
    zones := zones, port := some (.fetch 5 8 5000 32)
    buffers := (Vector.replicate 96 Buffer.reset).set 5 { Buffer.reset with inFlight := true } } }

/-- 6.9: the first fetch of 32 samples primes voice 5, which then asks again. -/
theorem test_first_fetch :
    let t := after (.fetchArrival (List.replicate 64 1)) fetching
    t.voice.voices[5].primed = true ∧ t.wave.buffers[5].samples = List.replicate 32 257
      ∧ t.wave.buffers[5].fetchPosition = 32 ∧ t.wave.port = some (.fetch 5 8 5064 32) := by decide +kernel

/-- 6.10: a header of 515 zones leaves 512 entries to read, eight to a read, from byte 8. -/
theorem test_load_header :
    let s := live.onWave fun w => { w with load := some ⟨none, 0, 0, 0, false⟩, port := some (.loadRead 0 8 false) }
    (after (.loadReadArrival [0x50, 0x56, 0x57, 0x53, 0x03, 0x02, 0, 0]) s).wave.load = some ⟨some 515, 512, 0, 0, false⟩
      ∧ (after (.loadReadArrival [0x50, 0x56, 0x57, 0x53, 0x03, 0x02, 0, 0]) s).wave.port = some (.loadRead 8 128 false)
      ∧ (after (.loadReadArrival [0x50, 0x56, 0x57, 0x54, 1, 0, 0, 0]) s).wave.summary.outcome = .badStore := by
  decide +kernel

/-- R107, R108: an entry of 11.8's layout, and one of level_lo 0, which is skipped. -/
theorem test_zone_entry :
    zoneEntryOf [39, 1, 127, 1, 0x88, 0x13, 0, 0, 0x80, 0x02, 0, 0, 0x58, 0x02, 0, 0]
        = some ⟨39, 1, 127, true, 5000, 640, 600⟩
      ∧ zoneEntryOf [39, 0, 127, 0, 0, 0, 0, 0, 0, 0, 0, 0, 0, 0, 0, 0] = none := by decide +kernel

/-- R122: a read of the store waits SERVING, and its arrival is the reply. -/
theorem test_diagnostic :
    let t := after (.readWaveStore 0x03FFFFFF 1) live
    t.link.dispatcher = .serving ∧ (after (.diagnosticReadArrival [7]) t).link.dispatcher = .sending ⟨0x32, .ok, [7]⟩ false
      ∧ (after (.readWaveStore 0x03FFFFFF 2) live).link.dispatcher = .sending ⟨0x32, .badValue, []⟩ false := by decide +kernel

/-- 8.10 at 18,950: both blocks READY, a strike is lost; at 20,300 the read of block A writes LOST 5, delta 50. -/
theorem test_overflow :
    let full : RecordBlock := ⟨.ready 0, List.replicate 48 ⟨1, 40, 60, 9⟩⟩
    let r : Recorder := { Recorder.reset with
      recording := true, blockA := full, blockB := { full with state := .ready 1 }, readyFirst := some .a, sequence := 2
      lastWritten := 18900 }
    (r.take 18950 (.strike 44 50)).2 = true ∧ (r.take 18950 (.strike 44 50)).1.firstLost = some 18950
      ∧ (after .readRecordBlock { live with perfClock := 20300, recorder := { r with
          lostCount := 5, firstLost := some 18950 } }).recorder.blockA = ⟨.active, [lostRecord 5 50]⟩ := by decide +kernel

/-- The first four slots of 9.16's passage, and its segment. -/
def lesson : State := { live with player := { Player.reset with
  passage := [(200, ⟨1, 31, 60, 0⟩), (201, ⟨1, 52, 70, 0⟩), (202, ⟨1, 56, 72, 12⟩), (203, ⟨1, 59, 68, 25⟩)]
  segments := Player.reset.segments.set 1 ⟨200, 4, 1, 100, .left, true, none⟩ } }

/-- 9.16 at 0: slot 200 sounds, slot 201 begins a wait for keys 52 and 56. -/
theorem test_wait :
    let p := (after (.playStart 1) lesson).player
    (p.state, p.slot, p.satisfied, p.expected, p.held) = (.waiting, 201, some 202, [52, 56], [31])
      ∧ (State.matchStrike 55 (after (.playStart 1) lesson)).player.wrong = 1
      ∧ (State.matchStrike 52 (after (.playStart 1) lesson)).player.expected = [56] := by decide +kernel

/-- 9.16 at 1,840: the last expected strike goes on, slot 201 fires silently. -/
theorem test_wait_ends :
    let p := (State.matchStrike 56 (State.matchStrike 52 (after (.playStart 1) lesson))).player
    (p.state, p.slot, p.countdown, p.held) = (.running, 202, 12, [31]) := by decide +kernel

/-- The chain of 9.15. -/
def chain : State := { live with player := { Player.reset with
  passage := [(0, ⟨1, 39, 80, 0⟩), (1, ⟨1, 43, 70, 0⟩), (2, ⟨2, 39, 40, 250⟩), (3, ⟨2, 43, 40, 10⟩),
    (100, ⟨3, 0, 200, 20⟩), (101, ⟨1, 50, 90, 100⟩)]
  segments := ((Player.reset.segments.set 0 ⟨0, 4, 2, 100, .both, false, some 3⟩).set 3
    ⟨0, 0, 1, 100, .both, false, some 5⟩).set 5 ⟨100, 2, 1, 50, .both, false, none⟩ } }

/-- 9.15 at 0: slots 0 and 1 fire in the load. -/
theorem test_chain_start :
    let p := (after (.playStart 0) chain).player
    (p.state, p.slot, p.countdown, p.repsLeft, p.held) = (.running, 2, 250, .left 2, [39, 43]) := by decide +kernel

/-- 9.15 at 520: the second pass ends, segment 3 is skipped and segment 5 loaded, with the recorder's MARK 5, 1. -/
theorem test_chain_skip :
    let s := { chain with
      recorder := { Recorder.reset with recording := true, blockA := ⟨.active, []⟩ }
      player := { chain.player with
        state := .running, copy := some (0, ⟨0, 4, 2, 100, .both, false, some 3⟩), next := some 3, slot := 3
        countdown := 1, repsLeft := .left 1, pass := 2, held := [43], tempo := some 0 } }
    let t := after .playbackTick s
    (t.player.slot, t.player.countdown, t.player.repsLeft, t.player.pass, t.player.held) = (100, 20, .left 1, 1, [])
      ∧ t.recorder.blockA.records = [⟨6, 5, 1, 0⟩] ∧ t.voice.playbackRequests = [.release 43 40] := by decide +kernel

/-- 10.9: the fifth waiting frame is an overrun; at the end of the reply the oldest is taken. -/
theorem test_queue :
    let busy := { live with link := { live.link with dispatcher := .sending ⟨0x10, .ok, []⟩ false } }
    let s := after .getStatus (after .getIdentity (after .getOutput (after .getPedalState busy)))
    s.link.queue.length = 4 ∧ (after .playPause s).link.overrun = 1
      ∧ (after (.replySent ⟨0, 0, false, false⟩) s).link.queue = [[0x3A], [0x01], [0x02]] := by decide +kernel

/-- 10.10 at 0: END_OPEN active at the end of the reset, the rail is OPEN and RAIL_DONE pulls ATTN_N low. -/
theorem test_reset_high :
    let t := after (.resetNHigh ⟨0, 0, true, false⟩) (after .resetNLow State.reset)
    t.rail.state = .opened ∧ t.pendingNotices = Notice.railDone.bit ∧ t.attnLow = true
      ∧ t.link.slot = .running .startup := by decide +kernel

/-- 10.1: the four bytes of the frame ask for the pedal state, and its reply is formed. -/
theorem test_receive :
    let take := fun b : Byte => after (.receiveByte b true)
    (take 0xF5 (take 0x20 (take 0x01 (take 0xD5 live)))).link.dispatcher
        = .sending ⟨0x20, .ok, live.pedals.statusBytes⟩ false
      ∧ (take 0xF4 (take 0x20 (take 0x01 (take 0xD5 live)))).link.badCheck = 1 := by decide +kernel

/-- The queue: a step takes its front. -/
theorem test_step : (match step { live with pending := [.setSplit 40, .playPause] } with
    | .next t => (t.player.split, t.pending)
    | _ => (0, [])) = (40, [.playPause]) := by decide +kernel

/-! ### Witnesses: for each obligation with hypotheses, a state and operands that meet them, with each clause at a boundary -/

theorem live_taking : live.taking := ⟨rfl, rfl, rfl⟩

theorem live_tickClear : live.tickClear := by unfold State.tickClear; decide +kernel

theorem live_scanClear : live.scanClear := ⟨by decide, by decide, by decide, nofun⟩

theorem live_scanner_ok : live.scanner.ok := by unfold Scanner.ok; decide +kernel

theorem live_player_ok : live.player.ok := by unfold Player.ok Player.rangesOk; decide +kernel

/-- The part with its link changed. -/
def linked (f : Link → Link) : State := live.onLink f

/-- The part with its rail in a state, at the OPEN end of a move to CLOSED where the state has them. -/
def railed (st : RailState) : State := live.onRail fun r => { r with state := st, target := .closed, origin := some .opened }

/-- The part with its player in a state. -/
def playing (st : PlayerState) : State := live.onPlayer fun p => { p with state := st }

theorem witness_StepTakesTheFrontCommand : live.pending = [] := rfl

theorem witness_ResetIsHeldAndReleased : live.taking
    ∧ (linked fun l => { l with dispatcher := .sending ⟨0x03, .ok, []⟩ true }).inReset = false
    ∧ (linked fun l => { l with dispatcher := .sending ⟨0x03, .ok, []⟩ true }).link.dispatcher
      = .sending ⟨0x03, .ok, []⟩ true := ⟨live_taking, rfl, rfl⟩

theorem witness_ResetEndsWithStatedValues : (after .resetNLow live).inReset = true
    ∧ (after .resetNLow live).rail.guardLow = false
    ∧ (after .resetNLow (after .railGuardAsserted live)).rail.guardLow = true
    ∧ (after (.resetNHigh ⟨1, 2, false, true⟩) (after .resetNLow live)).scanner.flightCount = 2 := by decide +kernel

theorem witness_ReceiverFollowsTheFrame :
    let at' := fun r => linked fun l => { l with receiver := r, interByte := some 0, framing := 65535 }
    ((at' .hunt).inReset = false ∧ (at' .hunt).link.receiver = .hunt)
      ∧ ((at' .length).link.receiver = .length ∧ (0xFF : Byte) ≠ 0)
      ∧ (at' (.body 1 [])).link.receiver = .body 1 [] ∧ (at' (.body 2 [])).link.receiver ≠ .hunt
      ∧ (at' .length).link.framing ≤ 65535 ∧ (at' .length).link.interByte = some 0 := by decide +kernel

theorem witness_CompleteFrameIsChecked :
    let s := linked fun l => { l with receiver := .check 1 [0x20], interByte := some 9, badCheck := 65535 }
    s.inReset = false ∧ s.link.receiver = .check 1 [0x20] ∧ s.link.badCheck ≤ 65535
      ∧ crc8 [0x01#8, 0x20#8] = 0xF5 ∧ crc8 [0x01#8, 0x20#8] ≠ 0xF4 := by decide +kernel

theorem witness_WholeFrameReachesTheQueue : live.inReset = false ∧ live.link.receiver = .hunt
    ∧ 1 ≤ [0x20#8].length ∧ (List.replicate 255 0x20#8).length ≤ 255 := by decide +kernel

theorem witness_RequestsReadBackFromTheirBytes : (Request.setRegulation 3 1 [someEntry]).lengthOk = true
    ∧ (Request.writePassage 0 0 []).lengthOk = true
    ∧ parseBody [0x51#8, 0#8, 1#8, 60#8] = .request (.readPassage 256 60) := by decide +kernel

theorem witness_BadKindsAndLengthsAreRefused : live.taking ∧ isKind 0x0A = false ∧ 0x80 ≤ (0x80 : Byte).toNat
    ∧ [someEntry].length ≠ (2 : Byte).toNat ∧ ([] : List Record).length ≠ (1 : Byte).toNat
    ∧ (linked fun l => { l with receiver := .check 2 [0x20, 0] }).taking
    ∧ isKind 0x20 = true ∧ ∀ r : Request, r.lengthOk = true → r.body ≠ [0x20, 0] :=
  ⟨live_taking, by decide +kernel, by decide +kernel, by decide, by decide, ⟨rfl, rfl, rfl⟩, by decide +kernel,
    fun r _ => by cases r <;> exact fun h => by injection h with h1 h2; first | (simp only [Request.kind] at h1; exact absurd h1 (by decide)) | cases h2⟩

/-- A pedal-state request with a byte too many, and an operation code that names none (R181, R195, R186). -/
theorem test_bad_frames :
    let s := fun body => linked fun l => { l with receiver := .check 2 body }
    (after (.receiveByte (crc8 [2, 0x20, 0]) true) (s [0x20, 0])).link.dispatcher = .sending ⟨0x20, .badLength, []⟩ false
      ∧ (after (.receiveByte (crc8 [2, 7, 4]) true) (s [7, 4])).link.dispatcher = .sending ⟨0x07, .badValue, []⟩ false := by
  decide +kernel

theorem witness_RequestsWaitOrOverrun :
    let s := fun n => linked fun l => { l with
      dispatcher := .serving, queue := List.replicate n [0x02], overrun := 65535 }
    requestOf .playPause = some .playPause ∧ (s 3).inReset = false ∧ (s 3).link.dispatcher ≠ .idle
      ∧ (s 3).link.queue.length < 4 ∧ (s 4).link.queue.length = 4 ∧ (s 4).link.overrun ≤ 65535 := by decide +kernel

theorem witness_RepliesTakeTheNextFrame :
    let r : Reply := ⟨0x02, .ok, []⟩
    let s := fun q => linked fun l => { l with dispatcher := .sending r false, queue := q }
    (s []).inReset = false ∧ (s []).link.dispatcher = .sending r false ∧ (s []).link.queue = []
      ∧ Request.getOutput.lengthOk = true ∧ requestOf .getOutput = some .getOutput
      ∧ (s [Request.getOutput.body]).link.queue = [Request.getOutput.body]
      ∧ (s [Request.getOutput.body, [0x02]]).link.queue = Request.getOutput.body :: [[0x02]] := by decide +kernel

theorem witness_NoticeRequestsActOnTheSet : live.taking ∧ 2048 ≤ (2048 : Half).toNat ∧ (2047 : Half).toNat < 2048
    ∧ Notice.opDone ≠ .recordReady := ⟨live_taking, by decide⟩

/-- Each run at its longest and at the table's end, and one past it; and a table that loads. -/
theorem witness_ReadingsChangeNothing : live.taking ∧ State.reset.taking ∧ State.reset.wave.load.isSome = true
    ∧ (after (.getKeyState 76 12) live).link.dispatcher ≠ .sending ⟨0x10, .badValue, []⟩ false
    ∧ (after (.getKeyState 77 12) live).link.dispatcher = .sending ⟨0x10, .badValue, []⟩ false
    ∧ (after (.getRegulation 72 16) live).link.dispatcher ≠ .sending ⟨0x13, .badValue, []⟩ false
    ∧ (after (.getRegulation 88 0) live).link.dispatcher = .sending ⟨0x13, .badValue, []⟩ false
    ∧ (after (.getVoiceState 88 8) live).link.dispatcher ≠ .sending ⟨0x31, .badValue, []⟩ false
    ∧ (after (.getVoiceState 96 0) live).link.dispatcher = .sending ⟨0x31, .badValue, []⟩ false
    ∧ (after (.getZone 0 0) live).link.dispatcher ≠ .sending ⟨0x33, .badValue, []⟩ false
    ∧ (after (.getZone 0 1) live).link.dispatcher = .sending ⟨0x33, .badValue, []⟩ false
    ∧ (after (.readPassage 8132 60) live).link.dispatcher ≠ .sending ⟨0x51, .badValue, []⟩ false
    ∧ (after (.readPassage 8133 60) live).link.dispatcher = .sending ⟨0x51, .badValue, []⟩ false :=
  ⟨live_taking, ⟨rfl, rfl, rfl⟩, by decide +kernel⟩

theorem witness_OperationsBegin :
    let quiet := fun q => live.onScanner fun c => { c with quiet := q }
    (State.reset.taking ∧ State.reset.link.slot = .running .startup)
      ∧ (live.taking ∧ (∀ op, live.link.slot ≠ .running op) ∧ live.wave.port = none)
      ∧ ((quiet true).taking ∧ (quiet true).rail.state = .opened ∧ (quiet true).scanner.quiet = true)
      ∧ ((quiet false).taking ∧ (quiet false).rail.state = .opened ∧ (quiet false).scanner.quiet = false)
      ∧ ((linked fun l => { l with receiver := .check 2 [0x07, 4] }).taking ∧ 4 ≤ (4 : Byte).toNat)
      ∧ ((railed .closed).taking ∧ (railed .closed).rail.state = .closed)
      ∧ ((railed .waitQuiet).taking ∧ (railed .waitQuiet).rail.state = .waitQuiet) :=
  ⟨⟨⟨rfl, rfl, rfl⟩, rfl⟩, ⟨live_taking, nofun, rfl⟩, ⟨⟨rfl, rfl, rfl⟩, rfl, rfl⟩, ⟨⟨rfl, rfl, rfl⟩, rfl, rfl⟩,
    ⟨⟨rfl, rfl, rfl⟩, by decide⟩, ⟨⟨rfl, rfl, rfl⟩, rfl⟩, ⟨⟨rfl, rfl, rfl⟩, rfl⟩⟩

theorem witness_AbortEndsTheOperation :
    let run := fun op (s : State) => s.onLink fun l => { l with slot := .running op }
    (live.taking ∧ ∀ op, live.link.slot ≠ .running op)
      ∧ ((run .learnRest live).taking ∧ (run .learnRest live).link.slot = .running .learnRest)
      ∧ ((run .startup live).link.slot = .running .startup ∧ (run .startup live).wave.load = none)
      ∧ (State.reset.taking ∧ State.reset.wave.load.isSome ∧ State.reset.link.slot = .running .startup
        ∧ State.reset.wave.port = some (.loadRead 0 8 false))
      ∧ ∀ phase, (run .railCalibrate (railed (.calibrating phase))).taking
        ∧ (run .railCalibrate (railed (.calibrating phase))).link.slot = .running .railCalibrate
        ∧ (run .railCalibrate (railed (.calibrating phase))).rail.state = .calibrating phase :=
  ⟨⟨live_taking, nofun⟩, ⟨⟨rfl, rfl, rfl⟩, rfl⟩, ⟨rfl, rfl⟩, ⟨⟨rfl, rfl, rfl⟩, rfl, rfl, rfl⟩,
    fun _ => ⟨⟨rfl, rfl, rfl⟩, rfl, rfl⟩⟩

theorem witness_ResultIsDeliveredOnce : live.taking ∧ live.link.slot = .empty
    ∧ (State.reset.taking ∧ State.reset.link.slot = .running .startup)
    ∧ (linked fun l => { l with slot := .finished .learnRest .aborted .nothing }).taking :=
  ⟨live_taking, rfl, ⟨⟨rfl, rfl, rfl⟩, rfl⟩, ⟨rfl, rfl, rfl⟩⟩

theorem witness_TickSamplesEveryGate : live.inReset = false ∧ live.tickClear := ⟨rfl, live_tickClear⟩

theorem witness_ExpiriesAndMarksAreTakenWhenDue :
    let s := withKey 39 { rising with strikeStamp := some ⟨12000, false⟩ } 1 { live with actionClock := 50403 }
    (s.inReset = false ∧ s.scanner.keys[39].g2Stamp = some ⟨10400, false, false⟩
        ∧ 40003 ≤ (s.actionClock - 10400).toNat ∧ ¬ 40003 ≤ (s.actionClock - 1 - 10400).toNat)
      ∧ (s.scanner.keys[39].strikeStamp = some ⟨12000, false⟩ ∧ 20002 ≤ (s.actionClock - 12000).toNat
        ∧ ¬ 20002 ≤ ((32001 : Stamp) - 12000).toNat)
      ∧ (live.scanner.keys[39].g2Stamp = none ∧ live.scanner.keys[39].strikeStamp = none ∧ live.scanner.settle ≠ some 0)
      ∧ ((s.onScanner fun c => { c with settle := some 0 }).scanner.settle = some 0
        ∧ (s.onScanner fun c => { c with settle := some 0 }).scanner.flightCount ≠ 0)
      ∧ ((live.onScanner fun c => { c with settle := some 0 }).scanner.settle = some 0
        ∧ (live.onScanner fun c => { c with settle := some 0 }).scanner.flightCount = 0) := by decide +kernel

/-- The interval 1,600; then the longest interval of a strike, and the shortest time that passes the guard. -/
theorem witness_StrikesAreAccepted :
    let s := withKey 39 { rising with
      g2Stamp := some ⟨10400, false, false⟩, strikeStamp := some ⟨42400, false⟩, phase := .rearmed, strikes := 65535 } 1
      { live with actionClock := 50402 }
    let k := s.scanner.keys[39]
    let stamp := s.actionClock - 2
    risingState.scanner.ok ∧ s.inReset = false ∧ s.scanner.ok ∧ k.g1 = ⟨false, 3⟩ ∧ k.g2.count < 3 ∧ s.scanner.ready = true
      ∧ s.touch.inEffect[39].enabled = true ∧ k.phase = .rearmed ∧ k.g2Stamp = some ⟨10400, false, false⟩
      ∧ (stamp - 10400).toNat = 40000 ∧ s.rail.state ≠ .closed
      ∧ (∀ st, k.strikeStamp = some st → st.guardMark = true ∨ 8000 ≤ (stamp - st.stamp).toNat) ∧ k.strikes ≤ 65535 := by
  refine ⟨by unfold Scanner.ok; decide +kernel, by decide +kernel, by unfold Scanner.ok; decide +kernel, by decide +kernel,
    by decide +kernel, by decide +kernel, by decide +kernel, by decide +kernel, by decide +kernel, by decide +kernel,
    by decide +kernel, ?_, by decide +kernel⟩
  rintro st h
  have : st = ⟨42400, false⟩ := by
    have h' : some (⟨42400, false⟩ : StrikeStamp) = some st := by rw [← h]; decide +kernel
    exact (Option.some.inj h').symm
  subst this
  decide +kernel

theorem witness_CrossingsAreClassified :
    let s := fun k : KeyRecord => withKey 39 k 1 { live with actionClock := 50403 }
    let low : KeyRecord := { KeyRecord.reset with
      g1 := ⟨false, 3⟩, orphan := 65535, gateFault := 65535, missed := 65535, rebound := 65535 }
    let up := { low with zone := .mid, g2 := ⟨true, 2⟩, phase := .travel, g2Stamp := some ⟨10400, false, false⟩ }
    ((withKey 39 low 0 live).scanner.ok ∧ (s up).scanner.ok ∧ (s up).inReset = false)
      ∧ (up.g1 = ⟨false, 3⟩ ∧ up.g2.count < 3 ∧ up.orphan ≤ 65535 ∧ low.phase = .idle ∧ up.phase = .travel)
      ∧ ((s up).scanner.ready = true ∧ (s up).touch.inEffect[39].enabled = true)
      ∧ (State.reset.scanner.ready = false ∧ low.g2Stamp = none)
      ∧ 40000 < ((s up).actionClock - 2 - 10400).toNat ∧ ((50402 : Stamp) - 2 - 10400).toNat = 40000
      ∧ ((50401 : Stamp) - 2 - 42400).toNat < 8000 := by
  refine ⟨⟨by unfold Scanner.ok; decide +kernel, by unfold Scanner.ok; decide +kernel, by decide +kernel⟩, ?_⟩
  decide +kernel

theorem witness_LowerGateRiseReachesTheRail :
    let s := withKey 61 { KeyRecord.reset with g2 := ⟨false, 3⟩, g1 := ⟨false, 2⟩ } 0 movingState
    let both := withKey 61 { KeyRecord.reset with g2 := ⟨false, 3⟩, g1 := ⟨false, 3⟩ } 0 movingState
    (s.inReset = false ∧ s.scanner.ok ∧ s.scanner.keys[61].g2 = ⟨false, 3⟩ ∧ s.scanner.keys[61].g1.count < 3)
      ∧ (both.inReset = false ∧ both.scanner.ok ∧ both.scanner.keys[61].g2 = ⟨false, 3⟩ ∧ both.scanner.keys[61].g1 = ⟨false, 3⟩)
      ∧ (s.rail.state = .moving ∧ s.rail.origin = some .opened)
      ∧ ((railed (.homing .driving)).rail.state = .homing .driving)
      ∧ ((railed (.calibrating .closing)).onLink fun l => { l with slot := .running .railCalibrate }).rail.state
        = .calibrating .closing
      ∧ live.rail.state ≠ .moving ∧ live.rail.state ≠ .homing .driving := by
  refine ⟨⟨by decide +kernel, by unfold Scanner.ok; decide +kernel, ?_⟩,
    ⟨by decide +kernel, by unfold Scanner.ok; decide +kernel, ?_⟩, ?_⟩ <;> decide +kernel

/-- R5, R17: with both rises due the G2 crossing is taken first, and makes a flight, and the G1 crossing after it takes the key
to HIGH; taken first, the G1 crossing's command has no effect. -/
theorem test_both_rises_due :
    let s := withKey 61 { KeyRecord.reset with g2 := ⟨false, 3⟩, g1 := ⟨false, 3⟩ } 0 movingState
    let t := after (.gateCrossing 61 .g2) s
    after (.gateCrossing 61 .g1) s = s ∧ (t.scanner.keys[61].zone, t.scanner.flightCount) = (.mid, 1)
      ∧ (after (.gateCrossing 61 .g1) t).scanner.keys[61].zone = .high := by decide +kernel

theorem witness_LandingsRestartTheSettleTimer :
    let s := fun (k : KeyRecord) n => withKey 39 { k with missed := 65535, gateFault := 65535 } n live
    let falling : KeyRecord := { KeyRecord.reset with zone := .mid, g2 := ⟨true, 3⟩, g1 := ⟨false, 2⟩ }
    let above : KeyRecord := { KeyRecord.reset with zone := .high, g2 := ⟨true, 0⟩, g1 := ⟨true, 3⟩ }
    (s falling 1).scanner.ok ∧ (s above 1).scanner.ok
      ∧ (s { falling with g1 := ⟨false, 3⟩ } 1).scanner.ok ∧ (s { above with g2 := ⟨false, 3⟩ } 1).scanner.ok
      ∧ (s { above with g2 := ⟨false, 0⟩ } 1).scanner.ok ∧ (s { above with g1 := ⟨true, 2⟩, g2 := ⟨true, 3⟩ } 1).scanner.ok
      ∧ (s { KeyRecord.reset with g1 := ⟨false, 3⟩, g2 := ⟨false, 3⟩ } 0).scanner.ok
      ∧ (s { above with g2 := ⟨true, 3⟩ } 1).scanner.ok ∧ (s falling 1).inReset = false
      ∧ (s falling 1).scanner.keys[39].missed ≤ 65535 := by
  refine ⟨?_, ?_, ?_, ?_, ?_, ?_, ?_, ?_, ?_⟩ <;> first | decide +kernel | (unfold Scanner.ok; decide +kernel)

theorem witness_ScansWorkEveryKey :
    let learning := live.onScanner fun c => { c with learning := some ⟨255, Vector.replicate 90 ⟨7, 1, 2⟩⟩ }
    live.inReset = false ∧ live.scanClear ∧ live.scanner.learning = none ∧ learning.inReset = false ∧ learning.scanClear
      ∧ learning.scanner.learning = some ⟨255, Vector.replicate 90 ⟨7, 1, 2⟩⟩ :=
  ⟨rfl, live_scanClear, rfl, rfl, ⟨by decide, by decide, by decide, fun l h => by
    obtain rfl := Option.some.inj h
    decide⟩, rfl⟩

theorem witness_ScansWorkThePedals :
    let third := live.onPedals fun p => { p with filter := ⟨false, 2⟩ }
    live.inReset = false ∧ live.scanClear ∧ live.scanner.ready = true
      ∧ State.reset.scanClear ∧ State.reset.scanner.ready = false
      ∧ third.inReset = false ∧ third.scanClear ∧ third.scanner.ready = true ∧ third.pedals.filter.count + 1 = 3 :=
  ⟨rfl, live_scanClear, rfl, ⟨by decide, by decide, by decide, nofun⟩, rfl, rfl, ⟨by decide, by decide, by decide, nofun⟩, rfl,
    by decide⟩

/-- R43, R46: the first scan while READY brings the third sample that turns the filter ON: the state is OFF in that scan,
nothing is offered, and the confirmation after it turns the live sostenuto and offers 1. A confirmation taken between the end
of rest learning and that first scan turns the filter alone. -/
theorem test_first_ready_scan :
    let s := { live with
      pedals := { live.pedals with filter := ⟨false, 2⟩ }
      recorder := { Recorder.reset with recording := true, blockA := ⟨.active, []⟩ } }
    let t := after (.scan ⟨Vector.replicate 88 0, 0, 600, 0, true, false, false⟩) s
    (t.pedals.live.sostenuto, t.pedals.mergedSostenuto, t.pedals.filter, t.recorder.blockA.records) = (false, false, ⟨false, 3⟩, [])
      ∧ (after (.sostenutoConfirmed 600) t).pedals.live.sostenuto = true
      ∧ (after (.sostenutoConfirmed 600) t).recorder.blockA.records = [⟨3, 1, 1, 0⟩]
      ∧ (after (.sostenutoConfirmed 600) s).pedals = { s.pedals with filter := ⟨true, 0⟩ } := by decide +kernel

theorem witness_DamperLiftFollowsTheMap : (PedalMap.mk 200 201).contact < (PedalMap.mk 200 201).full
    ∧ (PedalMap.mk 200 800).contact < 201 ∧ 799 < (PedalMap.mk 200 800).full
    ∧ live.inReset = false ∧ live.scanClear ∧ live.scanner.ready = true :=
  ⟨by decide, by decide, by decide, rfl, live_scanClear, rfl⟩

theorem witness_RestLearningCompletes :
    let s := fun scans op => (live.onScanner fun c => { c with learning := some ⟨scans, Vector.replicate 90 ⟨2560, 0, 41⟩⟩ }).onLink
      fun l => { l with slot := .running op }
    (s 255 .learnRest).inReset = false
      ∧ (s 255 .learnRest).scanner.learning = some ⟨255, Vector.replicate 90 ⟨2560, 0, 41⟩⟩
      ∧ (s 256 .learnRest).scanner.learning = some ⟨256, Vector.replicate 90 ⟨2560, 0, 41⟩⟩
      ∧ (s 256 .learnRest).link.slot = .running .learnRest ∧ (s 256 .startup).link.slot = .running .startup :=
  ⟨rfl, rfl, rfl, rfl, rfl⟩

theorem witness_SostenutoTurnsAtItsConfirmation :
    let s := fun on count => live.onPedals fun p => { p with filter := ⟨on, count⟩, following := true }
    (s false 3).pedals.following = true ∧ live.pedals.following = false ∧ (s false 1).inReset = false ∧ (s false 1).pedals.filter.count < 2 ∧ (s false 3).pedals.filter.count = 3
      ∧ (s false 2).pedals.filter.count = 2 ∧ (559 : Sample).toNat < 560 ∧ 560 ≤ (560 : Sample).toNat
      ∧ (s true 2).pedals.filter.on = true ∧ 460 < (461 : Sample).toNat ∧ (460 : Sample).toNat ≤ 460
      ∧ (s false 3).scanner.ready = true ∧ State.reset.scanner.ready = false := by decide +kernel

/-- The longest run at the table's end, and one past it. -/
theorem witness_KeyCountersAreReadAndCleared : live.taking
    ∧ ((64 : Byte).toNat ≤ 87 ∧ (24 : Byte).toNat ≤ 24 ∧ (64 : Byte).toNat + (24 : Byte).toNat ≤ 88)
    ∧ ¬ ((65 : Byte).toNat + (24 : Byte).toNat ≤ 88) := ⟨live_taking, by decide⟩

/-- The points of the default curve (R33). -/
def defaultPoints : Vector CurvePoint 9 :=
  #v[⟨0, 1⟩, ⟨20, 8⟩, ⟨40, 20⟩, ⟨80, 40⟩, ⟨120, 58⟩, ⟨160, 74⟩, ⟨240, 96⟩, ⟨320, 112⟩, ⟨1023, 127⟩]

/-- An entry at the ends of its ranges is written, one with its thresholds equal is not; the default curve is written, one
that begins above 0 is not. -/
theorem witness_RegulationAndCurveAreCheckedInFull : live.taking
    ∧ (after (.setRegulation 87 1 [⟨1023, 1022, 1023, 1, 511, -16, 0⟩]) live).touch.table[87]
      = ⟨1023, 1022, 1023, 1, 511, -16, false⟩
    ∧ (after (.setRegulation 87 1 [⟨0, 60, 60, 40, 128, 15, 1⟩]) live).link.dispatcher = .sending ⟨0x12, .badValue, []⟩ false
    ∧ (after (.setTouchCurve defaultPoints) live).link.dispatcher = .sending ⟨0x14, .ok, []⟩ false
    ∧ (after (.setTouchCurve (defaultPoints.set 0 ⟨1, 1⟩)) live).link.dispatcher = .sending ⟨0x14, .badValue, []⟩ false :=
  ⟨live_taking, by decide +kernel⟩

theorem witness_TouchLevelsFollowTheCurve : curveOf defaultPoints = some TouchUnit.reset.curve := by decide +kernel

/-- The codes and duties at the ends of their ranges. -/
theorem witness_SettingsAreCheckedAndWritten : live.taking
    ∧ ((1022 : Half).toNat < (1023 : Half).toNat ∧ ¬ (1024 : Half).toNat ≤ 1023)
    ∧ (30 ≤ (30 : Byte).toNat ∧ (100 : Byte).toNat ≤ 100 ∧ ¬ 30 ≤ (29 : Byte).toNat)
    ∧ ((1 : Byte).toNat ≤ 1 ∧ ¬ (2 : Byte).toNat ≤ 1 ∧ 4 ≤ (4 : Byte).toNat)
    ∧ ((7 : Byte).toNat < 8 ∧ 8 ≤ (8 : Byte).toNat ∧ (3 : Byte).toNat = Channel.line.code ∧ (1 : Byte).toNat = Side.right.code
      ∧ 2 ≤ (2 : Byte).toNat) := ⟨live_taking, by decide⟩

theorem witness_RailRequestsFollowTheState :
    let faulted := fun o c q => ((railed (.fault .drift)).onRail fun r => { r with
      switchOpen := ⟨o, 0⟩, switchClosed := ⟨c, 0⟩ }).onScanner fun n => { n with quiet := q }
    (∀ st, (railed st).taking ∧ (railed st).rail.state = st ∧ (railed st).scanner.quiet = true ∧ (railed st).rail.target = .closed)
      ∧ (((railed .opened).onScanner fun n => { n with quiet := false }).taking)
      ∧ (2 ≤ (2 : Byte).toNat ∧ live.taking ∧ ∀ reason, live.rail.state ≠ .fault reason)
      ∧ ∀ o c q, (faulted o c q).taking ∧ (faulted o c q).rail.guardLow = false
        ∧ (faulted o c q).rail.switchOpen.on = o ∧ (faulted o c q).rail.switchClosed.on = c ∧ (faulted o c q).scanner.quiet = q :=
  ⟨fun _ => ⟨⟨rfl, rfl, rfl⟩, rfl, rfl, rfl⟩, ⟨rfl, rfl, rfl⟩, ⟨by decide, live_taking, nofun⟩,
    fun _ _ _ => ⟨⟨rfl, rfl, rfl⟩, rfl, rfl, rfl, rfl⟩⟩

/-- Any rail state with either filter at any value: the state a clause names is one of these. -/
theorem witness_SwitchChangesMoveTheRail :
    let s := fun st origin attempts o c => (railed st).onRail fun r => { r with
      origin := origin, attempts := attempts, switchOpen := o, switchClosed := c }
    (∀ st origin attempts o c, (s st origin attempts o c).inReset = false ∧ (s st origin attempts o c).rail.state = st
        ∧ (s st origin attempts o c).rail.switchOpen = o ∧ (s st origin attempts o c).rail.switchClosed = c
        ∧ (s st origin attempts o c).rail.target = .closed ∧ (s st origin attempts o c).rail.origin = origin
        ∧ (s st origin attempts o c).rail.attempts = attempts)
      ∧ (s (.returning .retry) (some .opened) 2 ⟨false, 3⟩ ⟨false, 0⟩).rail.attempts < 3
      ∧ 3 ≤ (s (.returning .retry) (some .opened) 3 ⟨false, 3⟩ ⟨false, 0⟩).rail.attempts
      ∧ (s .moving (some .opened) 0 ⟨true, 0⟩ ⟨false, 2⟩).rail.switchClosed.count ≠ 3
      ∧ (s (.returning .retry) (some .opened) 2 ⟨false, 3⟩ ⟨false, 0⟩).scanner.quiet = true
      ∧ ((s (.returning .retry) (some .opened) 2 ⟨false, 3⟩ ⟨false, 0⟩).onScanner fun c => { c with quiet := false }).scanner.quiet
        = false :=
  ⟨fun _ _ _ _ _ => ⟨rfl, rfl, rfl, rfl, rfl, rfl, rfl⟩, by decide, by decide, by decide, rfl, rfl⟩

/-- R63, R67: a retry's return that arrives with the action quiet moves again at once; R57, R69: of two switch changes that one
scan leaves due, OPEN's is taken first, so that its arrival meets CLOSED still ACTIVE (notes/assumptions/30.md). -/
theorem test_retry_return :
    let s := fun o c => (railed (.returning .retry)).onRail fun r => { r with attempts := 2, switchOpen := o, switchClosed := c }
    (after (.endSwitchConfirmed .opened) (s ⟨false, 3⟩ ⟨false, 0⟩)).rail.state = .moving
      ∧ (after (.scan (samplesAt 0)) (s ⟨false, 3⟩ ⟨true, 3⟩)).rail.state = .fault .switchConflict := by decide +kernel

theorem witness_CalibrationMeasuresItsLegs :
    let s := fun phase o c => ((railed (.calibrating phase)).onRail fun r => { r with
      switchOpen := o, switchClosed := c, moveTimer := some 0 }).onLink fun l => { l with slot := .running .railCalibrate }
    (∀ phase o c, (s phase o c).inReset = false ∧ (s phase o c).link.slot = .running .railCalibrate
        ∧ (s phase o c).rail.state = .calibrating phase ∧ (s phase o c).rail.switchOpen = o
        ∧ (s phase o c).rail.switchClosed = c ∧ (s phase o c).rail.moveTimer = some 0)
      ∧ ((s .closing ⟨false, 0⟩ ⟨false, 3⟩).onScanner fun n => { n with quiet := false }).scanner.quiet = false
      ∧ (s .closing ⟨false, 0⟩ ⟨false, 3⟩).scanner.quiet = true :=
  ⟨fun _ _ _ => ⟨rfl, rfl, rfl, rfl, rfl, rfl⟩, rfl, rfl⟩

theorem witness_GuardAndTimerStopTheRail :
    (after .resetNLow live).inReset = true ∧ (railed (.fault .drift)).rail.state = .fault .drift
      ∧ (movingState.inReset = false ∧ (∀ reason, movingState.rail.state ≠ .fault reason)
        ∧ (∀ phase, movingState.rail.state ≠ .calibrating phase) ∧ movingState.rail.moveTimer ≠ some 0)
      ∧ (movingState.onRail fun r => { r with moveTimer := some 0 }).rail.moveTimer = some 0 :=
  ⟨rfl, rfl, ⟨rfl, nofun, nofun, by decide⟩, rfl⟩

/-- A part asked to sound key 27 at level 85 from either source, with 5.13's zones, the live gate open. -/
def asked : State := { live with
  rail := { live.rail with state := .closed }
  voice := { VoiceEngine.reset with
    liveRequests := [.strike 27 85], playbackRequests := [.strike 27 85], notReady := 65535, noZone := 65535 }
  wave := { live.wave with zones := zones } }

theorem witness_StrikesCanEndEarly : asked.inReset = false ∧ asked.voice.liveRequests.head? = some (.strike 27 85)
    ∧ asked.voice.liveRequests.head? ≠ some (.strike 28 85)
    ∧ (asked.onRail fun r => { r with state := .opened }).rail.state = .opened ∧ asked.voice.acousticLayer = false
    ∧ (asked.onWave fun w => { w with load := some ⟨none, 0, 0, 0, false⟩ }).wave.load.isSome = true
    ∧ asked.voice.notReady ≤ 65535 ∧ asked.voice.noZone ≤ 65535 ∧ asked.wave.load = none
    ∧ ∀ z ∈ (asked.onWave fun w => { w with zones := zones.take 1 }).wave.zones, z.key ≠ 27 ∨ 85 < z.levelLo ∨ z.levelHi < 85 := by
  decide +kernel

theorem witness_StrikesFillTheLowestFreeVoice : asked.inReset = false
    ∧ asked.voice.playbackRequests.head? = some (.strike 27 85) ∧ asked.rail.state ≠ .opened ∧ asked.wave.load = none
    ∧ asked.wave.zones[1]? = some ⟨27, 85, 127, true, 3000, 640, 600⟩
    ∧ (∀ n y, n < 1 → asked.wave.zones[n]? = some y → ¬ (y.key = 27 ∧ y.levelLo ≤ 85 ∧ 85 ≤ y.levelHi))
    ∧ asked.voice.voices[0].state = .free := by
  refine ⟨rfl, rfl, by decide, rfl, rfl, ?_, by decide +kernel⟩
  rintro n y hn h
  obtain rfl : n = 0 := by omega
  have : zones[0] = y := Option.some.inj h
  subst this
  decide

/-- The same with no voice FREE, and with a zone of loop off and length 0. -/
theorem witness_StrikesFillTheLowestFreeVoice_full :
    let full := asked.onVoice fun v => { v with voices := Vector.replicate 96 { Voice.reset with state := .sounding, key := 3 } }
    let short := asked.onWave fun w => { w with zones := [⟨27, 1, 127, false, 0, 0, 0⟩] }
    (∀ i : VoiceIx, full.voice.voices[i].state = .sounding) ∧ full.voice.liveRequests.head? = some (.strike 27 85)
      ∧ short.wave.zones[0]? = some ⟨27, 1, 127, false, 0, 0, 0⟩ ∧ short.wave.load = none
      ∧ (after (.voiceStrike .live 27 85) full).voice.voices[0].key = 27
      ∧ (after (.voiceStrike .live 27 85) short).voice.voices[0].state = .damping := by decide +kernel

theorem witness_StealsFollowTheThreeRules :
    let s := fun st => live.onVoice fun v => { v with voices := Vector.replicate 96 { Voice.reset with state := st } }
    (∀ i : VoiceIx, (s .fading).voice.voices[i].state = .fading) ∧ (∀ i : VoiceIx, (s .damping).voice.voices[i].state = .damping)
      ∧ ∀ i : VoiceIx, (s .priming).voice.voices[i].state = .priming := by decide +kernel

theorem witness_ReleasesSetTheReleaseLevel :
    let s := live.onVoice fun v => { v with liveRequests := [.release 39 127] }
    s.inReset = false ∧ s.voice.liveRequests.head? = some (.release 39 127)
      ∧ s.voice.liveRequests.head? ≠ some (.release 39 126) := by decide +kernel

theorem witness_TicksStepTheEnvelopes : movingState.inReset = false ∧ movingState.rail.moveTimer ≠ some 0 := by decide

theorem witness_EnvelopesFallUntilFreed :
    let v := fun st e : Nat => { Voice.reset with state := if st = 0 then .fading else .damping, e := e }
    (v 0 64).state = .fading ∧ 64 ≤ (v 0 64).e ∧ (v 1 64).state = .damping ∧ 1024 ≤ dampingRate (v 1 64).release 191
      ∧ (v 1 815).e * dampingRate (v 1 815).release 250 < 65536 ∧ (v 0 65535).e = 65535 := by decide

theorem witness_FramesMixEveryVoice :
    let voice := fun st => { Voice.reset with state := st, primed := true, zone := 2, key := 39 }
    let s := fun st b => live.onVoice (fun v => { v with voices := Vector.replicate 96 (voice st) })
      |>.onWave fun w => { w with zones := zones, buffers := Vector.replicate 96 b }
    (after .resetNLow live).inReset = true
      ∧ ((s .fading ⟨[7], 640, true, false, false⟩).inReset = false
        ∧ (s .fading ⟨[7], 640, true, false, false⟩).voice.voices[95].primed = true
        ∧ (s .fading ⟨[7], 640, true, false, false⟩).wave.buffers[95].samples = 7 :: [])
      ∧ (s .sounding ⟨[], 640, true, false, false⟩).wave.buffers[95].endFetched = true
      ∧ (s .damping ⟨[], 0, false, false, false⟩).wave.buffers[95].samples = []
      ∧ (s .priming ⟨[], 0, false, false, false⟩).voice.voices[0].state = .priming := by decide +kernel

/-- R125: the bits of a slot of value -1 and of the largest value, and of a frame of 0. -/
theorem test_frame_bits :
    slotBits (-1) = List.replicate 24 true ++ List.replicate 8 false
      ∧ slotBits 8388607 = false :: (List.replicate 23 true ++ List.replicate 8 false)
      ∧ slotBits (-8388607) = true :: (List.replicate 22 false ++ true :: List.replicate 8 false)
      ∧ AudioPort.reset.frameBits = List.replicate 256 false ∧ frameClockBits.length = 256 := by decide +kernel

theorem witness_RampsEndAtTheirTarget :
    let g : Gain := ⟨255, 253⟩
    (g.target - g.current) + (g.current - g.target) ≤ 2 ∧ 1 < (g.target - g.current) + (g.current - g.target) := by decide

/-- R119's choice: voices 2, 7 and 9 requesting with counts of 40, 12 and 12, a diagnostic read waiting; and a load. -/
def choosing (load : Option Load) : State :=
  let asking := fun count : Nat => { Buffer.reset with samples := List.replicate count 0, fetchPosition := 620, requesting := true }
  { live with
    voice := { VoiceEngine.reset with voices := Vector.replicate 96 { Voice.reset with state := .sounding, zone := 2 } }
    wave := { live.wave with
      zones := zones, port := none, load := load, diagnostics := [⟨0, 1⟩]
      buffers := (((Vector.replicate 96 Buffer.reset).set 2 (asking 40)).set 7 (asking 12)).set 9 (asking 12) } }

theorem witness_FetchesFillTheirVoice :
    let stale := fetching.onVoice fun v => { v with voices := v.voices.set 5 { v.voices[5] with generation := 9 } }
    fetching.inReset = false ∧ fetching.wave.port = some (.fetch 5 8 5000 32) ∧ (List.replicate 64 (1 : Byte)).length = 2 * 32
      ∧ fetching.voice.voices[5].state = .priming ∧ fetching.voice.voices[5].generation = 8
      ∧ fetching.voice.voices[5].primed = false ∧ 32 ≤ fetching.wave.buffers[5].samples.length + 32
      ∧ stale.voice.voices[5].generation ≠ 8
      ∧ (let w := (choosing none).wave
        w.port = none ∧ w.load = none ∧ w.buffers[7].requesting = true ∧ ∀ j : VoiceIx, w.buffers[j].requesting = true →
          w.buffers[7].samples.length < w.buffers[j].samples.length
            ∨ w.buffers[7].samples.length = w.buffers[j].samples.length ∧ (7 : VoiceIx) ≤ j)
      ∧ (choosing (some ⟨some 513, 512, 504, 0, true⟩)).wave.load = some ⟨some 513, 512, 504, 0, true⟩
      ∧ (let w := (live.onWave fun w => { w with diagnostics := [⟨0, 1⟩] }).wave
        w.port = none ∧ w.load = none ∧ w.diagnostics = [⟨0, 1⟩] ∧ ∀ i : VoiceIx, w.buffers[i].requesting = false) := by
  decide +kernel

/-- R119's table: voice 7 before 9 at equal counts and before 2, with its burst from its fetch position; a load's read goes
before them all, and a diagnostic read waits for a load that is running. -/
theorem test_arbiter :
    (choosing none).arbitrate.wave.port = some (.fetch 7 0 (5000 + 2 * 620) 20)
      ∧ (choosing (some ⟨some 513, 512, 504, 0, true⟩)).arbitrate.wave.port = some (.loadRead 8072 128 false)
      ∧ (live.onWave fun w => { w with diagnostics := [⟨9, 1⟩] }).arbitrate.wave.port = some (.diagnostic 9 1)
      ∧ (live.onWave fun w => { w with load := some ⟨none, 0, 0, 0, false⟩, diagnostics := [⟨9, 1⟩] }).arbitrate.wave.port
        = none := by decide +kernel

/-- R95, R117: a fetch of the last 20 samples of a zone with loop off primes its voice, and asks for nothing more. -/
theorem test_short_zone_primes :
    let s := { fetching with wave := { fetching.wave with
      zones := [⟨27, 1, 84, true, 1000, 640, 600⟩, ⟨27, 85, 127, true, 3000, 640, 600⟩, ⟨39, 1, 127, false, 5000, 20, 0⟩]
      port := some (.fetch 5 8 5000 20) } }
    let t := after (.fetchArrival (List.replicate 40 0)) s
    t.voice.voices[5].primed = true ∧ t.voice.voices[5].state = .damping ∧ t.wave.buffers[5].endFetched = true
      ∧ t.wave.buffers[5].requesting = false ∧ t.wave.port = none := by decide +kernel

theorem witness_LoadReadsBuildTheTable :
    let s := fun l d => live.onWave fun w => { w with load := some l, port := some (.loadRead 0 8 d) }
    (s ⟨none, 0, 0, 0, false⟩ true).wave.port = some (.loadRead 0 8 true)
      ∧ (s ⟨none, 0, 0, 0, false⟩ false).wave.port = some (.loadRead 0 8 false)
      ∧ (s ⟨none, 0, 0, 0, false⟩ false).inReset = false
      ∧ (s ⟨none, 0, 0, 0, false⟩ false).wave.load = some ⟨none, 0, 0, 0, false⟩
      ∧ [0x50#8, 0x56#8, 0x57#8, 0x53#8, 0, 0, 0, 0].length = 8
      ∧ [0x50#8, 0x56#8, 0x57#8, 0x53#8, 0, 0, 0, 0].take 4 = [0x50#8, 0x56#8, 0x57#8, 0x53#8]
      ∧ leNat [0x01#8, 0x02#8, 0x00#8, 0x00#8] = 513
      ∧ (s ⟨some 9, 9, 8, 0, false⟩ false).wave.load = some ⟨some 9, 9, 8, 0, false⟩
      ∧ ((s ⟨some 9, 9, 8, 0, false⟩ false).onLink fun l => { l with slot := .running .loadZones }).link.slot = .running .loadZones
      ∧ ((s ⟨some 9, 9, 0, 0, false⟩ false).onLink fun l => { l with slot := .running .startup }).link.slot
        = .running .startup := by decide +kernel

theorem witness_DiagnosticReadsReturnTheirBytes :
    let waiting := live.onWave fun w => { w with port := some (.diagnostic 0 1) }
    live.taking ∧ (1 ≤ (128 : Byte).toNat ∧ (0x03FFFF80 : Long).toNat + (128 : Byte).toNat ≤ 67108864)
      ∧ ¬ (0x03FFFF81 : Long).toNat + (128 : Byte).toNat ≤ 67108864
      ∧ (live.wave.port = none ∧ live.wave.load = none ∧ live.wave.diagnostics = []
        ∧ ∀ i : VoiceIx, live.wave.buffers[i].requesting = false)
      ∧ (waiting.taking ∧ waiting.wave.port = some (.diagnostic 0 1))
      ∧ (waiting.onLink fun l => { l with dispatcher := .serving }).link.dispatcher = .serving :=
  ⟨live_taking, by decide, by decide, by decide +kernel, ⟨⟨rfl, rfl, rfl⟩, rfl⟩, rfl⟩

/-- A recorder with two blocks in given states. -/
def recorded (on : Bool) (a b : RecordBlock) (first : Option BlockName) (lost : Nat) (at' : Option Time) : State :=
  { live with recorder := { Recorder.reset with
    recording := on, blockA := a, blockB := b, readyFirst := first, lostCount := lost, firstLost := at' } }

theorem witness_RecorderRequestsMoveTheBlocks :
    let one : RecordBlock := ⟨.ready 0, [⟨1, 40, 60, 9⟩]⟩
    let two : RecordBlock := ⟨.ready 1, [⟨1, 40, 60, 9⟩]⟩
    let none' : RecordBlock := ⟨.empty, []⟩
    (∀ on a b first lost at', (recorded on a b first lost at').taking)
      ∧ (4 ≤ (4 : Byte).toNat ∧ 1 ≤ (1 : Byte).toNat ∧ (3 : Byte).toNat ≤ 3)
      ∧ (live.recorder.recording = false ∧ live.recorder.anyReady = false)
      ∧ (recorded false one none' none 0 none).recorder.anyReady = true
      ∧ (recorded true one two (some .a) 1 (some 255)).recorder.readyFirst = some .a
      ∧ (let wait := fun first : Time => (first - (recorded true one two (some .a) 1 (some first)).recorder.lastWritten).toNat
        wait 255 / 65535 + 1 < 48 ∧ wait 255 % 65535 ≤ 255
          ∧ wait 3080400 / 65535 + 1 = 48 ∧ wait 3080400 % 65535 ≤ 255
          ∧ wait 3080401 / 65535 + 1 + 1 = 49 ∧ 255 < wait 3080401 % 65535)
      ∧ ((recorded true ⟨.active, []⟩ none' none 0 none).recorder.block .a).records = []
      ∧ ((recorded true ⟨.active, [⟨1, 40, 60, 9⟩]⟩ none' none 0 none).recorder.block .a).records ≠ []
      ∧ (recorded true one none' none 1 (some 3080400)).recorder.blockB.state = .empty
      ∧ (recorded true one none' none 0 none).recorder.blockB.state ≠ .active :=
  ⟨fun _ _ _ _ _ _ => ⟨rfl, rfl, rfl⟩, by decide, by decide, by decide, by decide, by decide, by decide, by decide, by decide, by decide⟩

theorem witness_EventsAreWrittenOrLost :
    let one : RecordBlock := ⟨.ready 0, [⟨1, 40, 60, 9⟩]⟩
    let full := (recorded true one { one with state := .ready 1 } (some .a) 65534 (some 0)).recorder
    let open' := (recorded true ⟨.active, List.replicate 46 ⟨1, 40, 60, 9⟩⟩ ⟨.empty, []⟩ none 0 none).recorder
    let half := (recorded true ⟨.active, List.replicate 46 ⟨1, 40, 60, 9⟩⟩ one none 0 none).recorder
    full.ok ∧ open'.ok ∧ half.ok ∧ full.recording = true ∧ full.lostCount < 65535 ∧ full.activeBlock = none
      ∧ open'.activeBlock = some .a ∧ ((255 : Time) - open'.lastWritten).toNat ≤ 255
      ∧ (open'.block .a).records.length < 47 ∧ live.recorder.recording = false
      ∧ (half.block .b).state.isReady = true ∧ half.activeBlock = some .a ∧ half.recording = true
      ∧ ((256 : Time) - open'.lastWritten).toNat = 256 ∧ 46 + 2 = 48 :=
  ⟨⟨show 1 ≤ 1 ∧ 1 ≤ 48 by decide, show 1 ≤ 1 ∧ 1 ≤ 48 by decide, by decide +kernel⟩,
    ⟨show (List.replicate 46 (⟨1, 40, 60, 9⟩ : Record)).length < 48 by decide +kernel, show [] = [] from rfl, by decide +kernel⟩,
    ⟨show (List.replicate 46 (⟨1, 40, 60, 9⟩ : Record)).length < 48 by decide +kernel, show 1 ≤ 1 ∧ 1 ≤ 48 by decide,
      by decide +kernel⟩, by decide +kernel⟩

/-- R139, R141: with 46 records held, an event 256 ms on fills the block with its GAP record and itself, and the other block
becomes ACTIVE; 512 ms on and a block READY, the event after that is lost, and RECORD_LOST is raised (R142, R148). -/
theorem test_block_fills :
    let s := { recorded true ⟨.active, List.replicate 46 ⟨1, 40, 60, 9⟩⟩ ⟨.empty, []⟩ none 0 none with perfClock := 256 }
    let t := s.offer .live (.strike 44 50)
    t.recorder.blockA.state = .ready 0 ∧ t.recorder.blockA.records.drop 46 = [gapRecord 256, ⟨1, 44, 50, 0⟩]
      ∧ t.recorder.blockB = ⟨.active, []⟩ ∧ t.isPending .recordLost = false
      ∧ ((t.onRecorder fun r => { r with blockB := ⟨.ready 1, [⟨1, 40, 60, 9⟩]⟩ }).offer .live (.strike 44 50)).isPending .recordLost
        = true := by decide +kernel

/-- The last slots and one past them; a segment number and fields at the ends of their ranges. -/
theorem witness_PlayerStoresReadBack : live.taking ∧ live.player.ok
    ∧ ((8132 : Half).toNat + (60 : Byte).toNat ≤ 8192 ∧ ¬ (8133 : Half).toNat + (60 : Byte).toNat ≤ 8192)
    ∧ (playing .waiting).taking ∧ (playing .waiting).player.state = .waiting
    ∧ (after (.writeSegment 31 ⟨8191, 1, 16, 200, 3, 1, 255⟩) live).link.dispatcher = .sending ⟨0x52, .ok, []⟩ false
    ∧ (after (.writeSegment 31 ⟨8191, 2, 16, 200, 3, 1, 255⟩) live).link.dispatcher = .sending ⟨0x52, .badValue, []⟩ false
    ∧ ((87 : Byte).toNat < 88 ∧ 88 ≤ (88 : Byte).toNat ∧ 50 ≤ (50 : Byte).toNat ∧ (150 : Byte).toNat ≤ 150) :=
  ⟨live_taking, live_player_ok, by decide, ⟨rfl, rfl, rfl⟩, rfl, by decide +kernel, by decide +kernel, by decide⟩

theorem witness_PauseResumeAndResetFollowTheState :
    (∀ st, (playing st).taking ∧ (playing st).player.state = st)
      ∧ ((playing .pausedRunning).onPlayer fun p => { p with copy := some (3, Segment.reset) }).player.copy
        = some (3, Segment.reset) := ⟨fun _ => ⟨⟨rfl, rfl, rfl⟩, rfl⟩, rfl⟩

/-- The 32 segments, all empty, each naming the next, and the last one END. -/
def allEmpty : Vector Segment 32 :=
  Vector.ofFn fun i : Fin 32 => { Segment.reset with next := if h : i.val + 1 < 32 then some ⟨i.val + 1, h⟩ else none }

/-- The segments in ascending order, as a chain. -/
def ascending (i : Nat) : Fin 32 := ⟨i % 32, Nat.mod_lt i (by decide)⟩

/-- A first segment with records, with time before its first record and without, after no empty segment and after 31 of them;
a chain of one that ends at END, one of 31, and one of 32. -/
theorem witness_PlayStartsAndStops :
    let held := fun st => live.onPlayer fun p => { p with
      state := st, held := [39], tempo := if st = .running then some 9 else none
      expected := if st = .waiting ∨ st = .pausedWaiting then [40] else [] }
    let s := lesson.onPlayer fun p => { p with copy := some (31, Segment.reset), passage := [(200, ⟨1, 31, 60, 1⟩)] }
    let first := s.onPlayer fun p => { p with passage := [(200, ⟨2, 31, 60, 0⟩), (201, ⟨3, 0, 60, 0⟩)] }
    let empties := live.onPlayer fun p => { p with segments := allEmpty }
    let full := empties.onPlayer fun p => { p with segments := p.segments.set 31 { Segment.reset with count := 1 } }
    (live.taking ∧ live.player.ok ∧ live.recorder.recording = false ∧ live.player.state = .idle)
      ∧ (32 ≤ (32 : Byte).toNat ∧ (31 : Byte).toNat < 32)
      ∧ (s.taking ∧ s.player.ok ∧ s.player.state = .idle ∧ s.player.copy = some (31, Segment.reset)
        ∧ s.player.segments[1].count ≠ 0 ∧ (passageAt s.player.passage s.player.segments[1].start).delta.toNat ≠ 0)
      ∧ (lesson.taking ∧ lesson.player.ok ∧ lesson.player.state = .idle ∧ lesson.player.copy = none
        ∧ lesson.player.segments[1].count ≠ 0)
      ∧ (first.taking ∧ first.player.ok ∧ first.player.state = .idle ∧ first.player.copy = some (31, Segment.reset)
        ∧ first.player.segments[1].start = 200 ∧ (passageAt first.player.passage 200).delta.toNat = 0)
      ∧ (full.taking ∧ full.player.ok ∧ full.player.state = .idle ∧ (∀ i < 31, full.player.segments[ascending i].count = 0)
        ∧ (∀ i < 30, full.player.segments[ascending i].next = some (ascending (i + 1)))
        ∧ full.player.segments[ascending 30].next = some 31 ∧ full.player.segments[31].count ≠ 0)
      ∧ (empties.taking ∧ empties.player.ok ∧ empties.player.state = .idle
        ∧ (∀ i < 32, empties.player.segments[ascending i].count = 0)
        ∧ (∀ i < 31, empties.player.segments[ascending i].next = some (ascending (i + 1)))
        ∧ empties.player.segments[ascending 31].next = none)
      ∧ (live.player.segments[31].count = 0 ∧ live.player.segments[31].next = none)
      ∧ ((held .running).player.ok ∧ (held .waiting).player.ok ∧ (held .pausedRunning).player.ok ∧ (held .pausedWaiting).player.ok)
      ∧ (∀ st, (held st).taking ∧ (held st).player.state = st) := by
  refine ⟨⟨live_taking, live_player_ok, rfl, rfl⟩, by decide, ⟨⟨rfl, rfl, rfl⟩, ?_, by decide +kernel⟩,
    ⟨⟨rfl, rfl, rfl⟩, ?_, by decide +kernel⟩, ⟨⟨rfl, rfl, rfl⟩, ?_, by decide +kernel⟩,
    ⟨⟨rfl, rfl, rfl⟩, ?_, rfl, by decide +kernel, by decide +kernel, by decide +kernel⟩,
    ⟨⟨rfl, rfl, rfl⟩, ?_, rfl, by decide +kernel, by decide +kernel, by decide +kernel⟩,
    by decide +kernel, ⟨?_, ?_, ?_, ?_⟩, fun _ => ⟨⟨rfl, rfl, rfl⟩, rfl⟩⟩ <;> (unfold Player.ok Player.rangesOk; decide +kernel)

/-- R161, R162, R159, R172: a chain that starts with 31 empty segments is played from the 32nd, and one of 32 halts; the first
records without time, a RELEASE of a sounding key and a PEDAL, fire at PLAY START, after the MARK. -/
theorem test_play_starts :
    let play := fun s n => after (.playStart n) s
    let empties := live.onPlayer fun p => { p with segments := allEmpty }
    let full := empties.onPlayer fun p => { p with
      segments := p.segments.set 31 ⟨200, 3, 2, 100, .both, false, none⟩
      passage := [(200, ⟨2, 31, 60, 0⟩), (201, ⟨3, 0, 70, 0⟩), (202, ⟨1, 31, 60, 5⟩)] }
    let t := play { full with recorder := { Recorder.reset with recording := true, mask := .both, blockA := ⟨.active, []⟩ } } 0
    (t.player.state, t.player.skips, t.player.slot, t.player.countdown) = (.running, 0, 202, 5)
      ∧ t.recorder.blockA.records = [⟨6, 31, 1, 0⟩, ⟨2, 31, 60, 0⟩, ⟨3, 0, 70, 0⟩] ∧ t.pedals.mergedLift = 70
      ∧ (play empties 0).player.state = .haltedChainEmpty ∧ (play empties 1).isPending .playEnd = true := by decide +kernel

/-- The chain under way with a tick due, its due record and countdown given. -/
def dueChain (r : Record) (countdown : Nat) (seg : Segment) : State := { live with player := { Player.reset with
  state := .running, passage := [(0, r), (1, ⟨1, 43, 70, 1⟩)], copy := some (0, seg), tempo := some 0, countdown := countdown } }

theorem reset_ranges : ∀ i : Fin 32, Player.reset.segments[i].start + Player.reset.segments[i].count ≤ 8192 := by decide +kernel

theorem dueChain_ranges (r : Record) (n : Nat) {g : Segment} (h : g.start + g.count ≤ 8192) : (dueChain r n g).player.rangesOk :=
  ⟨h, reset_ranges⟩

theorem witness_PlaybackTicksFireOrWait :
    let seg : Segment := ⟨0, 2, 1, 100, .right, false, none⟩
    let s := fun r n => dueChain r n seg
    let chord := (s ⟨1, 39, 80, 0⟩ 0).onPlayer fun p => { p with passage := [(0, ⟨1, 39, 80, 0⟩), (1, ⟨1, 43, 70, 0⟩)] }
    (live.inReset = false ∧ live.player.tempo ≠ some 0)
      ∧ (∀ r n g, (dueChain r n g).inReset = false ∧ (dueChain r n g).player.tempo = some 0
        ∧ (dueChain r n g).player.state = .running ∧ (dueChain r n g).player.copy = some (0, g)
        ∧ (dueChain r n g).player.countdown = n ∧ (dueChain r n g).player.slot = 0)
      ∧ (∀ r n, (s r n).player.rangesOk ∧ (s r n).player.slot + 1 < seg.start + seg.count ∧ passageAt (s r n).player.passage 0 = r)
      ∧ ((s ⟨1, 39, 80, 0⟩ 2).player.countdown ≠ 0 ∧ live.player.state ≠ .running)
      ∧ ((s ⟨1, 39, 80, 0⟩ 0).player.split = 39 ∧ 7 ≤ (7 : Byte).toNat)
      ∧ ((dueChain ⟨1, 38, 80, 0⟩ 0 { seg with wait := true }).player.rangesOk
        ∧ (dueChain ⟨1, 38, 80, 0⟩ 0 { seg with wait := true }).player.satisfied = none
        ∧ (passageAt (dueChain ⟨1, 38, 80, 0⟩ 0 { seg with wait := true }).player.passage 0).key.toNat = 38)
      ∧ (seg.wait ≠ true ∧ (s ⟨1, 88, 80, 0⟩ 0).fireRecord ⟨1, 88, 80, 0⟩ = none
        ∧ (s ⟨1, 39, 80, 0⟩ 0).fireRecord ⟨1, 39, 80, 0⟩ ≠ none)
      ∧ (chord.player.state = .running ∧ chord.player.countdown = 0 ∧ chord.player.rangesOk ∧ chord.player.copy = some (0, seg)
        ∧ chord.fireRecord ⟨1, 39, 80, 0⟩ ≠ none ∧ (passageAt chord.player.passage 1).delta.toNat + chord.player.gap = 0)
      ∧ (s ⟨2, 38, 80, 0⟩ 0).player.held = []
      ∧ ((s ⟨2, 38, 80, 0⟩ 0).onPlayer fun p => { p with held := [38] }).player.held = [38]
      ∧ (88 ≤ (88 : Byte).toNat ∧ 3 ≤ (3 : Byte).toNat) := by
  exact ⟨⟨rfl, by decide⟩, fun _ _ _ => ⟨rfl, rfl, rfl, rfl, rfl, rfl⟩,
    fun r n => ⟨dueChain_ranges r n (by decide), Nat.lt_succ_self 1, rfl⟩, by decide +kernel, by decide +kernel,
    ⟨dueChain_ranges _ _ (by decide), by decide +kernel⟩, by decide +kernel,
    ⟨rfl, rfl, dueChain_ranges ⟨1, 39, 80, 0⟩ 0 (by decide), rfl, by decide +kernel⟩, rfl, rfl, by decide⟩

/-- R159: a chord's records fire in one tick, in slot order; the next record waits for its own delta. -/
theorem test_chord :
    let s := (dueChain ⟨1, 39, 80, 0⟩ 1 ⟨0, 4, 1, 100, .both, false, none⟩).onPlayer fun p => { p with
      passage := [(0, ⟨1, 43, 80, 0⟩), (1, ⟨1, 39, 70, 0⟩), (2, ⟨2, 43, 64, 0⟩), (3, ⟨2, 39, 64, 7⟩)] }
    let t := after .playbackTick s
    t.voice.playbackRequests = [.strike 43 80, .strike 39 70, .release 43 64] ∧ t.player.held = [39]
      ∧ (t.player.slot, t.player.countdown) = (3, 7) := by decide +kernel

/-- R163, R49: a PEDAL record sets the merged lift and is recorded as played, also while the live pedal is lower; a GAP
record's time is added to the next record's delta; a STRIKE of key 88 halts the player. -/
theorem test_fired_records :
    let seg : Segment := ⟨0, 2, 1, 100, .right, false, none⟩
    let on := fun r => { dueChain r 1 seg with recorder := { Recorder.reset with
      recording := true, mask := .both, blockA := ⟨.active, []⟩ } }
    ((after .playbackTick (on ⟨3, 0, 200, 0⟩)).pedals.mergedLift, (after .playbackTick (on ⟨3, 0, 200, 0⟩)).recorder.blockA.records)
        = (200, [⟨3, 0, 200, 0⟩])
      ∧ (after .playbackTick (on ⟨4, 0x10, 1, 0⟩)).player.countdown = 273
      ∧ (after .playbackTick (on ⟨1, 88, 80, 0⟩)).player.state = .haltedBadEvent
      ∧ (after .playbackTick (on ⟨1, 38, 80, 0⟩)).voice.playbackRequests = [] := by decide +kernel

/-- R143: a recovery that waits 3,080,401 ms writes 48 GAP records, which fill the block, and stays pending with the time they
reached; the next one writes its LOST record at once. -/
theorem test_recovery_cut_off :
    let s := recorded true ⟨.ready 0, [⟨1, 40, 60, 9⟩]⟩ ⟨.ready 1, [⟨1, 40, 60, 9⟩]⟩ (some .a) 700 (some 3080401)
    let t := (after .readRecordBlock s).recorder
    let u := (t.free .b)
    t.blockA.records.length = 48 ∧ t.blockA.records.getLast? = some ⟨4, 0x00, 0x01, 0⟩ ∧ t.recoveryPending = true
      ∧ t.lostCount = 700 ∧ t.lastWritten = 3080401 ∧ t.readyFirst = some .b
      ∧ u.blockB = ⟨.active, [⟨5, 0xBC, 0x02, 0⟩]⟩ ∧ u.recoveryPending = false ∧ u.firstLost = none := by decide +kernel

/-- R167: a record at a time of 30, with a GAP of 20 before it, joins the wait, and one at 31 does not. -/
theorem test_lookahead :
    let s := fun delta => (dueChain ⟨1, 38, 80, 0⟩ 1 ⟨0, 4, 1, 100, .right, true, none⟩).onPlayer fun p => { p with
      passage := [(0, ⟨1, 38, 80, 0⟩), (1, ⟨4, 20, 0, 5⟩), (2, ⟨1, 30, 70, delta⟩), (3, ⟨1, 39, 70, 0⟩)] }
    let t := fun delta => (after .playbackTick (s delta)).player
    ((t 5).expected, (t 5).satisfied) = ([30, 38], some 3) ∧ ((t 6).expected, (t 6).satisfied) = ([38], some 1) := by
  decide +kernel

/-- The last record of a range, of any kind: repetitions left, none left, the next segment, an empty one at the 32nd skip, a
chain of all 32 empty segments, and END; with time and without time before the next range's first record. -/
theorem witness_RangesEndAndSegmentsLoad :
    let seg : Segment := ⟨0, 1, 3, 100, .both, false, some 3⟩
    let s := fun r reps skips next => (dueChain r 0 seg).onPlayer fun p => { p with
      repsLeft := reps, skips := skips, next := next
      segments := p.segments.set 4 ⟨1, 1, 0, 100, .both, false, none⟩ }
    (∀ r reps skips next, (s r reps skips next).player.rangesOk
        ∧ (s r reps skips next).player.state = .running ∧ (s r reps skips next).player.copy = some (0, seg)
        ∧ (s r reps skips next).player.countdown = 0 ∧ (s r reps skips next).player.slot + 1 = seg.start + seg.count
        ∧ passageAt (s r reps skips next).player.passage 0 = r ∧ (s r reps skips next).player.repsLeft = reps
        ∧ (s r reps skips next).player.skips = skips ∧ (s r reps skips next).player.next = next)
      ∧ (seg.wait ≠ true ∧ ∀ kind ∈ [0, 1, 2, 3, 4, 5, 6],
        (s ⟨kind, 2, 80, 0⟩ (.left 1) 0 none).fireRecord ⟨kind, 2, 80, 0⟩ ≠ none)
      ∧ ((⟨1, 2, 80, 1⟩ : Record).delta.toNat + 0 ≠ 0 ∧ (⟨1, 2, 80, 0⟩ : Record).delta.toNat + 0 = 0 ∧ seg.count = 1)
      ∧ ((s ⟨4, 1, 0, 0⟩ (.left 1) 0 (some 4)).player.segments[4].count ≠ 0
        ∧ (passageAt (s ⟨4, 1, 0, 0⟩ (.left 1) 0 (some 4)).player.passage 1).delta.toNat + (1 + 256 * 0) ≠ 0)
      ∧ ((s ⟨1, 39, 80, 0⟩ (.left 0) 31 (some 3)).player.segments[3].count = 0
        ∧ (s ⟨2, 39, 80, 0⟩ (.left 0) 30 (some 3)).player.segments[3].next = none)
      ∧ ((s ⟨0, 0, 0, 0⟩ (.left 1) 30 (some 3)).onPlayer fun p => { p with
        segments := p.segments.set 3 { Segment.reset with next := some 4 } }).player.segments[3].next = some 4
      ∧ (let p := ((s ⟨1, 39, 80, 0⟩ (.left 1) 0 (some 0)).onPlayer fun p => { p with segments := allEmpty }).player
        p.rangesOk ∧ p.next = some (ascending 0) ∧ (∀ i ≤ 31, p.segments[ascending i].count = 0)
          ∧ (∀ i < 31, p.segments[ascending i].next = some (ascending (i + 1))) ∧ p.skips + 31 = 31
          ∧ p.segments[ascending 31].next = none ∧ p.skips + 30 < 31) := by
  refine ⟨fun _ _ _ _ => ⟨⟨show 0 + 1 ≤ 8192 by decide, ?_⟩, rfl, rfl, rfl, rfl, rfl, rfl, rfl, rfl⟩, by decide +kernel, by decide, by decide +kernel,
    by decide +kernel, by decide +kernel, ⟨by decide, by decide +kernel⟩, by decide +kernel⟩
  show ∀ i : Fin 32, (Player.reset.segments.set 4 ⟨1, 1, 0, 100, .both, false, none⟩)[i].start
    + (Player.reset.segments.set 4 ⟨1, 1, 0, 100, .both, false, none⟩)[i].count ≤ 8192
  decide +kernel

/-- R165, R162, R161: the last pass of a range but one begins the last with its MARK; with none left and END named, play ends;
a range with no time in it, played endlessly, is played twice in one firing run and then waits a unit; a STRIKE that ends a
range is held, and released where play ends with it. -/
theorem test_range_ends :
    let s := fun r reps => { dueChain r 1 ⟨0, 1, 3, 100, .both, false, none⟩ with
      player := { (dueChain r 1 ⟨0, 1, 3, 100, .both, false, none⟩).player with repsLeft := reps, pass := 2 }
      recorder := { Recorder.reset with recording := true, blockA := ⟨.active, []⟩ } }
    (after .playbackTick (s ⟨0, 0, 0, 9⟩ (.left 2))).recorder.blockA.records = [⟨6, 0, 3, 0⟩]
      ∧ (after .playbackTick (s ⟨0, 0, 0, 9⟩ (.left 2))).player.countdown = 9
      ∧ (after .playbackTick (s ⟨0, 0, 0, 9⟩ (.left 1))).isPending .playEnd = true
      ∧ (after .playbackTick (s ⟨0, 0, 0, 0⟩ .endless)).recorder.blockA.records = [⟨6, 0, 3, 0⟩, ⟨6, 0, 4, 0⟩]
      ∧ (after .playbackTick (s ⟨0, 0, 0, 0⟩ .endless)).player.countdown = 1
      ∧ (after .playbackTick (s ⟨1, 40, 80, 9⟩ (.left 2))).player.held = [40]
      ∧ (after .playbackTick (s ⟨1, 40, 80, 9⟩ (.left 1))).voice.playbackRequests = [.strike 40 80, .release 40 64] := by
  decide +kernel

theorem witness_LiveStrikesAreMatched :
    let seg : Segment := ⟨0, 2, 1, 100, .right, true, none⟩
    let s := fun expected => (dueChain ⟨1, 38, 80, 0⟩ 0 seg).onPlayer fun p => { p with
      state := .waiting, tempo := none, expected := expected, satisfied := some 0, wrong := 65535 }
    live.player.state ≠ .waiting
      ∧ (∀ e, (s e).player.state = .waiting ∧ (s e).player.expected = e ∧ (s e).player.copy = some (0, seg)
        ∧ (s e).player.countdown = 0 ∧ (s e).player.satisfied = some 0 ∧ (s e).player.slot ≤ 0
        ∧ (s e).player.slot + 1 < seg.start + seg.count ∧ (s e).player.split = 39 ∧ (s e).player.rangesOk)
      ∧ (37 : Key) ∉ [(38 : Key), 40] ∧ (s [38]).player.wrong ≤ 65535 ∧ (∃ j ∈ [(38 : Key), 40], j ≠ 38)
      ∧ (∀ i ∈ [(38 : Key)], i = 38)
      ∧ (passageAt (s [38]).player.passage 0).key.toNat = 38 ∧ (passageAt (s [38]).player.passage 1).delta.toNat + 0 ≠ 0 :=
  ⟨by decide, fun _ => ⟨rfl, rfl, rfl, rfl, rfl, Nat.le_refl 0, Nat.lt_succ_self 1, rfl,
    dueChain_ranges ⟨1, 38, 80, 0⟩ 0 (by decide)⟩, by decide +kernel⟩

/-- A state that meets all five invariants, from which a step goes on. -/
def stepping : State := { live with pending := [.railGuardAsserted] }

theorem stepping_goes_on : step stepping = .next (after .railGuardAsserted live) := rfl

theorem witness_EveryStepKeepsTheLink : stepping.link.ok :=
  ⟨by decide, by decide, by decide, trivial, by decide⟩

theorem witness_EveryStepKeepsTheRail : stepping.railOk :=
  ⟨rfl, by decide, nofun, trivial, show (0 : Nat) ≤ 3 by decide, by decide⟩

theorem witness_EveryStepKeepsTheScanner : stepping.scanner.ok := live_scanner_ok

theorem witness_EveryStepKeepsTheRecorder : stepping.recorder.ok :=
  ⟨rfl, rfl, by decide +kernel⟩

theorem witness_EveryStepKeepsThePlayer : stepping.player.ok := live_player_ok

end Sys2Proof.Tests
end

section
/-! PROOFS. One key record in a crossing (R4 to R7, R10 to R13): what each of a gate's crossings leaves. -/

namespace Sys2Proof.Machine

/-- A G2 rise (R6, R7): the zone is MID or HIGH, and a fresh g2_stamp is set. -/
theorem KeyRecord.cross_g2_rise (key : Key) (active : Bool) (guard : Nat) (stamp : Stamp) (level : Nat → Nat) (k : KeyRecord)
    (below : k.g2.above = false) : k.cross key .g2 active guard stamp level
      = ({ k with g2 := ⟨true, 0⟩, zone := zoneOfLevels k.g1.above true, g2Stamp := some ⟨stamp, false, false⟩ }, []) := by
  obtain ⟨_, _, _, _, ⟨up1, _⟩, ⟨_, _⟩⟩ := k
  subst below
  cases up1 <;> rfl

/-- A G2 fall under a raised G1 (R6): the impossible combination, counted on an active key. -/
theorem KeyRecord.cross_g2_fall_high (key : Key) (active : Bool) (guard : Nat) (stamp : Stamp) (level : Nat → Nat)
    (k : KeyRecord) (above : k.g2.above = true) (high : k.g1.above = true) : k.cross key .g2 active guard stamp level
      = ({ k with g2 := ⟨false, 0⟩, zone := .high, gateFault := if active then bump k.gateFault else k.gateFault }, []) := by
  obtain ⟨_, _, _, _, ⟨_, _⟩, ⟨_, _⟩⟩ := k
  subst above high
  cases active <;> rfl

/-- A G1 fall over a raised G2 (R6): the key is in MID, and nothing else follows. -/
theorem KeyRecord.cross_g1_fall_mid (key : Key) (active : Bool) (guard : Nat) (stamp : Stamp) (level : Nat → Nat)
    (k : KeyRecord) (above : k.g1.above = true) (mid : k.g2.above = true) : k.cross key .g1 active guard stamp level
      = ({ k with g1 := ⟨false, 0⟩, zone := .mid }, []) := by
  obtain ⟨_, _, _, _, ⟨_, _⟩, ⟨_, _⟩⟩ := k
  subst above mid
  rfl

/-- The counter of missed excursions after a landing (R13). -/
def KeyRecord.missedAfter (active : Bool) (k : KeyRecord) : Nat :=
  if active && k.missedExcursion then bump k.missed else k.missed

/-- A G2 fall under a lowered G1 is a landing (R7, R13). -/
theorem KeyRecord.cross_g2_lands (key : Key) (active : Bool) (guard : Nat) (stamp : Stamp) (level : Nat → Nat) (k : KeyRecord)
    (above : k.g2.above = true) (below : k.g1.above = false) (flying : k.zone ≠ .low) :
    k.cross key .g2 active guard stamp level
      = ({ k with g2 := ⟨false, 0⟩, zone := .low, g2Stamp := none, missed := k.missedAfter active }, []) := by
  obtain ⟨_, zone, _, _, ⟨_, _⟩, ⟨_, _⟩⟩ := k
  subst above below
  simp [cross, missedAfter, flip, gate, zoneOfLevels, impossible, missedExcursion, flying]

/-- A G1 fall over a lowered G2 is a landing (R7, R13). -/
theorem KeyRecord.cross_g1_lands (key : Key) (active : Bool) (guard : Nat) (stamp : Stamp) (level : Nat → Nat) (k : KeyRecord)
    (above : k.g1.above = true) (below : k.g2.above = false) (flying : k.zone ≠ .low) :
    k.cross key .g1 active guard stamp level
      = ({ k with g1 := ⟨false, 0⟩, zone := .low, g2Stamp := none, missed := k.missedAfter active }, []) := by
  obtain ⟨_, zone, _, _, ⟨_, _⟩, ⟨_, _⟩⟩ := k
  subst above below
  simp [cross, missedAfter, flip, gate, zoneOfLevels, impossible, missedExcursion, flying]

/-- A G1 rise's class leaves the levels and the zone (R10, R11). -/
theorem KeyRecord.riseG1_levels (key : Key) (guard : Nat) (stamp : Stamp) (level : Nat → Nat) (k : KeyRecord) :
    (k.riseG1 key guard stamp level).1.zone = k.zone ∧ (k.riseG1 key guard stamp level).1.g1 = k.g1
      ∧ (k.riseG1 key guard stamp level).1.g2 = k.g2 := by
  unfold KeyRecord.riseG1
  split <;> exact ⟨rfl, rfl, rfl⟩

/-- The record and the events of a G1 rise before its mark and its gate fault: a key that is not active is not classified. -/
def KeyRecord.risen (key : Key) (active : Bool) (guard : Nat) (stamp : Stamp) (level : Nat → Nat) (k : KeyRecord) :
    KeyRecord × List NoteRequest :=
  let up : KeyRecord := { k with g1 := ⟨true, 0⟩, zone := .high }
  if active then up.riseG1 key guard stamp level else (up, [])

theorem KeyRecord.risen_levels (key : Key) (active : Bool) (guard : Nat) (stamp : Stamp) (level : Nat → Nat) (k : KeyRecord) :
    (k.risen key active guard stamp level).1.zone = .high ∧ (k.risen key active guard stamp level).1.g1 = ⟨true, 0⟩
      ∧ (k.risen key active guard stamp level).1.g2 = k.g2 := by
  unfold KeyRecord.risen
  cases active
  · exact ⟨rfl, rfl, rfl⟩
  · exact KeyRecord.riseG1_levels ..

/-- A G1 rise (R6, R7, R10): the crossing's class, the reached-high mark, and one gate fault of an active key whose G2 is
BELOW. -/
theorem KeyRecord.cross_g1_rise (key : Key) (active : Bool) (guard : Nat) (stamp : Stamp) (level : Nat → Nat) (k : KeyRecord)
    (below : k.g1.above = false) : k.cross key .g1 active guard stamp level
      = (let r := k.risen key active guard stamp level
         ({ r.1 with
            g2Stamp := r.1.g2Stamp.map fun g => { g with reachedHigh := true }
            gateFault := if !k.g2.above && active then bump k.gateFault else r.1.gateFault }, r.2)) := by
  obtain ⟨high, up1, up2⟩ := k.risen_levels key active guard stamp level
  have start : k.cross key .g1 active guard stamp level
      = (let r := k.risen key active guard stamp level
         let k' := r.1.markHigh
         let k' := if k'.impossible && active then { k' with gateFault := bump k.gateFault } else k'
         let k' := if k'.zone = .low then
             { k' with
               g2Stamp := none, missed := if active && k'.missedExcursion && k.zone != .low then bump k'.missed else k'.missed }
           else k'
         (k', r.2)) := by
    unfold KeyRecord.cross KeyRecord.risen
    simp only [KeyRecord.gate, KeyRecord.flip, below]
    cases active <;> rfl
  rw [start]
  generalize k.risen key active guard stamp level = r at high up1 up2
  obtain ⟨⟨_, _, _, _, ⟨_, _⟩, ⟨_, _⟩⟩, _⟩ := r
  cases high
  cases up1
  simp only at up2
  rw [← up2]
  simp only [KeyRecord.markHigh, KeyRecord.impossible, Bool.true_and]
  split <;> rfl

end Sys2Proof.Machine
end

section
/-! PROOFS. The parts of a scan (R2, R3, R8, R9, R15, R20, R23, R51): one key's record and RELEASE, and what the pedals' part leaves. -/

namespace Sys2Proof.Machine

/-! ### What the pedals' part of a scan changes -/

/-- Nothing but the pedals, the recorder and the pending notices changes. -/
def PedalWork (s t : State) : Prop :=
  ∃ d r n, t = { s with pedals := d, recorder := r, link := { s.link with pendingSet := n } }

theorem PedalWork.trans {s t u : State} (h : PedalWork s t) (g : PedalWork t u) : PedalWork s u := by
  obtain ⟨d, r, n, rfl⟩ := h
  obtain ⟨d', r', n', rfl⟩ := g
  exact ⟨d', r', n', rfl⟩

theorem State.onPedals_pedalWork (f : PedalUnit → PedalUnit) (s : State) : PedalWork s (s.onPedals f) :=
  ⟨_, s.recorder, s.link.pendingSet, rfl⟩

theorem State.offers_pedalWork (source : Source) (events : List RecorderEvent) (s : State) :
    PedalWork s (events.foldl (fun u e => u.offer source e) s) := by
  obtain ⟨r, n, h⟩ := s.offers_spec source events
  exact ⟨s.pedals, r, n, h s rfl rfl rfl⟩

theorem State.offerDamper_pedalWork (s : State) : PedalWork s s.offerDamper := by
  rw [State.offerDamper_eq]
  exact (s.onPedals_pedalWork _).trans (State.offers_pedalWork _ _ _)

theorem State.offerSostenuto_pedalWork (s : State) : PedalWork s s.offerSostenuto := by
  rw [State.offerSostenuto_eq]
  exact (s.onPedals_pedalWork _).trans (State.offers_pedalWork _ _ _)

theorem State.offerUnaCorda_pedalWork (s : State) : PedalWork s s.offerUnaCorda := by
  rw [State.offerUnaCorda_eq]
  exact (s.onPedals_pedalWork _).trans (State.offers_pedalWork _ _ _)

theorem State.scanPedals_pedalWork (samples : ScanSamples) (s : State) : PedalWork s (s.scanPedals samples) := by
  have live (t : State) : PedalWork t
      ((t.onPedals fun p => { p with live := p.liveValues, following := true }).mergePedals.offerDamper.offerSostenuto) :=
    (((t.onPedals_pedalWork _).trans (State.onPedals_pedalWork _ _)).trans (State.offerDamper_pedalWork _)).trans
      (State.offerSostenuto_pedalWork _)
  simp only [State.scanPedals]
  split
  · split
    · exact (s.onPedals_pedalWork _).trans (live _)
    · exact ((s.onPedals_pedalWork _).trans (live _)).trans (State.offerUnaCorda_pedalWork _)
  · exact s.onPedals_pedalWork _

/-- What a scan's RELEASEs and its pedals' part leave of the state in which they are taken. -/
theorem State.scanKeys_pedalWork (samples : ScanSamples) (s : State) :
    PedalWork ((s.keysScanned samples).onVoice fun v => { v with
      liveRequests := v.liveRequests ++ allKeys.filterMap fun k =>
        (s.releaseLevel samples k).map fun l => NoteRequest.release k (BitVec.ofNat 8 l) }) (s.scanKeys samples) := by
  rw [State.scanKeys_eq]
  exact State.offers_pedalWork _ _ _

/-- The keys' and the pedals' parts of a scan, in either order (R51): the keys' records and requests, and pedal work. -/
theorem State.scanSensors_pedalWork (samples : ScanSamples) (s : State) :
    PedalWork ((s.keysScanned samples).onVoice fun v => { v with
      liveRequests := v.liveRequests ++ allKeys.filterMap fun k =>
        (s.releaseLevel samples k).map fun l => NoteRequest.release k (BitVec.ofNat 8 l) }) (s.scanSensors samples) := by
  unfold State.scanSensors
  split
  · refine PedalWork.trans ?_ (State.scanKeys_pedalWork samples _)
    obtain ⟨d, r, n, h⟩ := s.scanPedals_pedalWork samples
    rw [h]
    exact ⟨d, r, n, rfl⟩
  · exact (s.scanKeys_pedalWork samples).trans (State.scanPedals_pedalWork samples _)

/-! ### One key's work at a scan -/

section
variable (ready : Bool) (e : RegEntry) (raw : Nat) (k : KeyRecord)

/-- A struck or rearmed key's stroke ends at this scan, below the release point or by its disabling (R9, R23). -/
def KeyRecord.ends : Bool :=
  ready && (k.phase = .struck || k.phase = .rearmed) && (!e.enabled || decide (travelOf raw e.rest < e.releasePoint))

/-- A struck key rearms at this scan (R9). -/
def KeyRecord.rearms : Bool :=
  ready && k.phase = .struck && e.enabled && !decide (travelOf raw e.rest < e.releasePoint)
    && decide (travelOf raw e.rest < e.rearmPoint)

/-- The level of a RELEASE at this scan (R15). -/
def KeyRecord.scanLevel : Nat := min 127 ((k.history[1] - travelOf raw e.rest) / 4)

/-- The phase after this scan (R8, R9, R20, R23). -/
def KeyRecord.scanPhase : Phase :=
  if !ready then k.phase
  else if k.ends ready e raw then .idle
  else if k.rearms ready e raw then .rearmed
  else if k.phase = .travel && (!e.enabled || decide (travelOf raw e.rest < e.releasePoint)) then .idle
  else if k.phase = .idle && e.enabled && decide (e.touchPoint ≤ travelOf raw e.rest) then .travel
  else k.phase

/-- One key's scan: its record, and the level of the RELEASE where its stroke ends. -/
theorem KeyRecord.scan_eq : k.scan ready e raw = ({ k with
      travel := travelOf raw e.rest
      history := #v[k.history[1], k.history[2], k.history[3], k.history[4], travelOf raw e.rest]
      lastRelease := if k.ends ready e raw then (if e.enabled then k.scanLevel e raw else 0)
        else if k.rearms ready e raw then k.scanLevel e raw else k.lastRelease
      phase := k.scanPhase ready e raw },
    if k.ends ready e raw then some (if e.enabled then k.scanLevel e raw else 0) else none) := by
  cases ready with
  | false => simp [scan, ends, rearms, scanPhase, scanTravel]
  | true =>
    have now : (k.scanTravel (travelOf raw e.rest)).releaseNow = k.scanLevel e raw := rfl
    cases on : e.enabled with
    | false =>
      cases phase : k.phase <;> simp [scan, ends, rearms, scanPhase, on, phase, disable, scanTravel]
    | true =>
      simp only [scan, on, phaseCheck, now]
      cases phase : k.phase with
      | idle =>
        by_cases touched : e.touchPoint ≤ travelOf raw e.rest <;>
          simp [ends, rearms, scanPhase, on, phase, scanTravel, touched]
      | travel =>
        by_cases below : travelOf raw e.rest < e.releasePoint <;>
          simp [ends, rearms, scanPhase, on, phase, scanTravel, below]
      | struck =>
        by_cases below : travelOf raw e.rest < e.releasePoint <;>
          by_cases rearm : travelOf raw e.rest < e.rearmPoint <;>
          simp [ends, rearms, scanPhase, on, phase, scanTravel, below, rearm]
      | rearmed =>
        by_cases below : travelOf raw e.rest < e.releasePoint <;>
          simp [ends, rearms, scanPhase, on, phase, scanTravel, below]

end

end Sys2Proof.Machine
end

section
/-! PROOFS. The Action Scanner's invariant (R6, R7, R17, R18): what each change of the Scanner leaves of it. -/

namespace Sys2Proof.Machine

/-! ### One key's part in the invariant -/

/-- The zone is the one the filtered levels give (R6), and LOW has no g2_stamp (R7). -/
def KeyRecord.zoneOk (k : KeyRecord) : Prop :=
  k.zone = zoneOfLevels k.g1.above k.g2.above ∧ (k.zone = .low → k.g2Stamp = none)

theorem zoneOfLevels_eq_low (g1 g2 : Bool) : zoneOfLevels g1 g2 = .low ↔ g1 = false ∧ g2 = false := by
  cases g1 <;> cases g2 <;> decide

/-- A key with a gate ABOVE is in flight. -/
theorem KeyRecord.zoneOk.flying {k : KeyRecord} (ok : k.zoneOk) (above : k.g1.above = true ∨ k.g2.above = true) :
    k.zone ≠ .low := by
  rw [ok.1, Ne, zoneOfLevels_eq_low]
  rintro ⟨h1, h2⟩
  simp [h1, h2] at above

/-- A crossing keeps the key's part: it derives the zone anew, and a landing removes the g2_stamp. -/
theorem KeyRecord.zoneOk.cross {k : KeyRecord} (ok : k.zoneOk) (key : Key) (g : Gate) (active : Bool) (guard : Nat)
    (stamp : Stamp) (level : Nat → Nat) : (k.cross key g active guard stamp level).1.zoneOk := by
  cases g with
  | g1 =>
    cases up1 : k.g1.above with
    | false =>
      obtain ⟨high, up, -⟩ := k.risen_levels key active guard stamp level
      rw [k.cross_g1_rise _ _ _ _ _ up1]
      refine ⟨?_, fun low => ?_⟩
      · simp only [high, up, zoneOfLevels, if_true]
      · simp only [high] at low
        cases low
    | true =>
      cases up2 : k.g2.above with
      | false =>
        rw [k.cross_g1_lands _ _ _ _ _ up1 up2 (ok.flying (.inl up1))]
        exact ⟨by simp [up2, zoneOfLevels], fun _ => rfl⟩
      | true =>
        rw [k.cross_g1_fall_mid _ _ _ _ _ up1 up2]
        exact ⟨by simp [up2, zoneOfLevels], nofun⟩
  | g2 =>
    cases up2 : k.g2.above with
    | false =>
      rw [k.cross_g2_rise _ _ _ _ _ up2]
      exact ⟨rfl, fun low => by simp [zoneOfLevels_eq_low] at low⟩
    | true =>
      cases up1 : k.g1.above with
      | false =>
        rw [k.cross_g2_lands _ _ _ _ _ up2 up1 (ok.flying (.inr up2))]
        exact ⟨by simp [up1, zoneOfLevels], fun _ => rfl⟩
      | true =>
        rw [k.cross_g2_fall_high _ _ _ _ _ up2 up1]
        exact ⟨by simp [up1, zoneOfLevels], nofun⟩

/-- A change of a key record that leaves its zone and its levels, and gives it no g2_stamp. -/
def KeyRecord.SameFlight (k r : KeyRecord) : Prop :=
  r.zone = k.zone ∧ r.g1.above = k.g1.above ∧ r.g2.above = k.g2.above ∧ (k.g2Stamp = none → r.g2Stamp = none)

theorem KeyRecord.SameFlight.zoneOk {k r : KeyRecord} (h : k.SameFlight r) (ok : k.zoneOk) : r.zoneOk := by
  obtain ⟨zone, up1, up2, stamp⟩ := h
  exact ⟨by rw [zone, up1, up2, ok.1], fun low => stamp (ok.2 (zone ▸ low))⟩

theorem KeyRecord.scan_sameFlight (ready : Bool) (e : RegEntry) (raw : Nat) (k : KeyRecord) :
    k.SameFlight (k.scan ready e raw).1 := by
  rw [KeyRecord.scan_eq]
  exact ⟨rfl, rfl, rfl, id⟩

theorem KeyRecord.takeStale_sameFlight (now : Stamp) (k : KeyRecord) : k.SameFlight (k.takeStale now) := by
  unfold KeyRecord.takeStale
  split
  · exact ⟨rfl, rfl, rfl, fun absent => by simp [absent]⟩
  · exact ⟨rfl, rfl, rfl, id⟩

theorem KeyRecord.takeGuard_sameFlight (now : Stamp) (k : KeyRecord) : k.SameFlight (k.takeGuard now) := by
  unfold KeyRecord.takeGuard
  split <;> exact ⟨rfl, rfl, rfl, id⟩

/-! ### The flight count (R17) -/

theorem Scanner.ok_iff (c : Scanner) : c.ok ↔ (∀ k : Key, c.keys[k].zoneOk) ∧ c.flightCount = inFlight c.keys
    ∧ (c.quiet = true → c.flightCount = 0 ∧ c.settle = none) := by
  simp only [Scanner.ok, KeyRecord.zoneOk, inFlight, forall_and, and_assoc]

/-- The count of the other keys is the same before and after one key's record is replaced. -/
theorem inFlight_set (keys : Vector KeyRecord 88) (key : Key) (r : KeyRecord) :
    inFlight (keys.set key r) + (if keys[key].zone = .low then 0 else 1)
      = inFlight keys + (if r.zone = .low then 0 else 1) := by
  have parts (t : Vector KeyRecord 88) : inFlight t
      = (List.countP (fun k => t[k].zone != .low) (allKeys.erase key)) + if t[key].zone = .low then 0 else 1 := by
    unfold inFlight
    have mem : key ∈ allKeys := List.mem_finRange key
    rw [← List.countP_eq_length_filter, (List.perm_cons_erase mem).countP_eq, List.countP_cons]
    simp
  have others : List.countP (fun k => (keys.set key r)[k].zone != .low) (allKeys.erase key)
      = List.countP (fun k => keys[k].zone != .low) (allKeys.erase key) := by
    refine List.countP_congr fun k hk => ?_
    have ne : k ≠ key := ((List.nodup_finRange 88).mem_erase_iff.1 hk).1
    have ne : key.val ≠ k.val := fun h => ne (Fin.ext h.symm)
    simp [ne]
  rw [parts, parts keys, others]
  simp only [Fin.getElem_fin, Vector.getElem_set_self]
  omega

/-- Changes of key records that keep each key's part, with the flight count as it was, quiet only where it was, and a stopped
settle timer still stopped. -/
theorem Scanner.ok_of_sameFlight {c d : Scanner} (ok : c.ok) (keys : ∀ k : Key, c.keys[k].SameFlight d.keys[k])
    (count : d.flightCount = c.flightCount) (quiet : d.quiet = c.quiet) (settle : c.settle = none → d.settle = none) :
    d.ok := by
  rw [Scanner.ok_iff] at ok ⊢
  obtain ⟨zones, flight, calm⟩ := ok
  refine ⟨fun k => (keys k).zoneOk (zones k), ?_, fun h => ?_⟩
  · have same : (fun k : Key => d.keys[k].zone != .low) = fun k : Key => c.keys[k].zone != .low :=
      funext fun k => by rw [(keys k).1]
    rw [count, flight, inFlight, inFlight, same]
  · obtain ⟨none', stopped⟩ := calm (quiet ▸ h)
    exact ⟨count.trans none', settle stopped⟩

/-- A change of zone counts the flight, ends quiet and restarts the settle timer as R17 and R18 say. -/
theorem Scanner.zoneChanged_ok {c : Scanner} (ok : c.ok) (key : Key) (r : KeyRecord) (part : r.zoneOk) (stamp : Stamp) :
    (Scanner.zoneChanged c.keys[key].zone r.zone stamp { c with keys := c.keys.set key r }).ok := by
  have count := inFlight_set c.keys key r
  rw [Scanner.ok_iff] at ok ⊢
  obtain ⟨zones, flight, calm⟩ := ok
  have zones' : ∀ k : Key, (c.keys.set key r)[k].zoneOk := fun k => by
    by_cases e : key.val = k.val
    · simpa [Vector.getElem_set, e] using part
    · simpa [Vector.getElem_set, e] using zones k
  rw [← flight] at count
  unfold Scanner.zoneChanged
  split
  · rename_i rise
    simp only [if_pos rise.1, if_neg rise.2] at count
    exact ⟨zones', count.symm, nofun⟩
  · split
    · rename_i land
      simp only [if_neg land.1, if_pos land.2] at count
      exact ⟨zones', by simp only []; omega, nofun⟩
    · rename_i noRise noLanding
      have same : c.keys[key].zone = .low ↔ r.zone = .low := by tauto
      simp only [same] at count
      exact ⟨zones', by simp only []; omega, calm⟩

end Sys2Proof.Machine
end

section
/-! PROOFS. The Action Scanner's invariant through the work that leaves the Scanner alone, and through the Scanner's own work. -/

namespace Sys2Proof.Machine

/-! ### Work that leaves the Scanner alone -/

theorem PlayWork.scanner {s t : State} (h : PlayWork s t) : t.scanner = s.scanner := by
  obtain ⟨p, d, r, v, n, k, rfl, -⟩ := h
  rfl

theorem RailWork.scanner {s t : State} (h : RailWork s t) : t.scanner = s.scanner := by
  obtain ⟨r, n, sl, rfl, -⟩ := h
  rfl

theorem WaveWork.scanner {s t : State} (h : WaveWork s t) : t.scanner = s.scanner := by
  obtain ⟨v, w, rfl⟩ := h
  rfl

theorem PedalWork.scanner {s t : State} (h : PedalWork s t) : t.scanner = s.scanner := by
  obtain ⟨d, r, n, rfl⟩ := h
  rfl

theorem State.endOperation_scanner (o : OpOutcome) (d : Details) (s : State) : (s.endOperation o d).scanner = s.scanner :=
  (s.endOperation_frame o d).rail.scanner

theorem State.raiseIf_scanner (b : Bool) (n : Notice) (s : State) : (s.raiseIf b n).scanner = s.scanner :=
  (s.raiseIf_play b n).scanner

/-- A live event joins the live requests; the rest of its work is the recorder's and the player's (R16). -/
theorem State.emitLive_play (n : NoteRequest) (s : State) :
    PlayWork (s.onVoice fun v => { v with liveRequests := v.liveRequests ++ [n] }) (s.emitLive n) := by
  cases n with
  | strike k l => exact (State.offer_play _ _ _).trans (State.matchStrike_play _ _)
  | release k l => exact State.offer_play _ _ _

theorem State.emitLive_scanner (n : NoteRequest) (s : State) : (s.emitLive n).scanner = s.scanner :=
  (s.emitLive_play n).scanner

theorem State.foldl_scanner {α : Type} (f : State → α → State) (same : ∀ s a, (f s a).scanner = s.scanner) (l : List α)
    (s : State) : (l.foldl f s).scanner = s.scanner := by
  induction l generalizing s with
  | nil => rfl
  | cons a l ih => exact (ih (f s a)).trans (same s a)

/-! ### The Scanner's own work -/

/-- The Scanner's invariant is kept from one state to another. -/
def KeepsScanner (s t : State) : Prop := s.scanner.ok → t.scanner.ok

theorem KeepsScanner.of_eq {s t : State} (same : t.scanner = s.scanner) : KeepsScanner s t := fun ok => same ▸ ok

theorem KeepsScanner.trans {s t u : State} (h : KeepsScanner s t) (g : KeepsScanner t u) : KeepsScanner s u := g ∘ h

/-- A change of the Scanner that is none of the flight's. -/
theorem State.onScanner_keeps (f : Scanner → Scanner) (s : State)
    (keys : ∀ k : Key, s.scanner.keys[k].SameFlight (f s.scanner).keys[k])
    (count : (f s.scanner).flightCount = s.scanner.flightCount) (quiet : (f s.scanner).quiet = s.scanner.quiet)
    (settle : s.scanner.settle = none → (f s.scanner).settle = none) : KeepsScanner s (s.onScanner f) :=
  fun ok => Scanner.ok_of_sameFlight ok keys count quiet settle

theorem KeyRecord.SameFlight.refl (k : KeyRecord) : k.SameFlight k := ⟨rfl, rfl, rfl, id⟩

/-- A change of the Scanner's readiness or rest learning. -/
theorem State.onLearning_keeps (f : Scanner → Scanner) (s : State)
    (same : f s.scanner = { s.scanner with ready := (f s.scanner).ready, learning := (f s.scanner).learning }) :
    KeepsScanner s (s.onScanner f) := by
  refine s.onScanner_keeps f (fun k => ?_) (by rw [same]) (by rw [same]) (fun h => by rw [same]; exact h)
  rw [same]
  exact .refl _

theorem State.crossing_keeps (key : Key) (g : Gate) (s : State) : KeepsScanner s (s.crossing key g) := by
  intro ok
  have part := ((Scanner.ok_iff _).1 ok).1 key
  have changed := Scanner.zoneChanged_ok ok key _
    (part.cross key g (s.keyActive key) (guardLength s.rail.state) (s.actionClock - 2) (s.touchLevelOf key)) (s.actionClock - 2)
  simp only [State.crossing]
  split
  · rw [(State.g2Report_rail _).scanner, State.foldl_scanner _ fun t n => State.emitLive_scanner n t]
    exact changed
  · rw [State.foldl_scanner _ fun t n => State.emitLive_scanner n t]
    exact changed

theorem State.takeCrossing_keeps (key : Key) (g : Gate) (s : State) : KeepsScanner s (s.takeCrossing key g) := by
  unfold State.takeCrossing
  split
  · exact s.crossing_keeps key g
  · exact id

/-- One key's record changed, in a way that is none of the flight's. -/
theorem State.updateKey_keeps (key : Key) (f : KeyRecord → KeyRecord) (s : State)
    (same : ∀ k : KeyRecord, k.SameFlight (f k)) :
    KeepsScanner s (s.onScanner fun c => { c with keys := updateAt key f c.keys }) := by
  refine s.onScanner_keeps _ (fun k => ?_) rfl rfl id
  simp only [Fin.getElem_fin, updateAt_getElem]
  split
  · rename_i e
    rw [← Fin.ext e]
    exact same _
  · exact .refl _

theorem State.takeStale_keeps (key : Key) (s : State) : KeepsScanner s (s.takeStale key) :=
  s.updateKey_keeps key _ (KeyRecord.takeStale_sameFlight _)

theorem State.takeGuard_keeps (key : Key) (s : State) : KeepsScanner s (s.takeGuard key) :=
  s.updateKey_keeps key _ (KeyRecord.takeGuard_sameFlight _)

/-- The settle timer stops at its expiry, and quiet begins only with none in flight (R18). -/
theorem State.settleExpires_keeps (s : State) : KeepsScanner s s.settleExpires := by
  have stops : KeepsScanner s (s.onScanner fun c => { c with settle := none }) :=
    s.onScanner_keeps _ (fun k => .refl _) rfl rfl fun _ => rfl
  unfold State.settleExpires
  extract_lets t
  split
  · rename_i none'
    refine stops.trans (KeepsScanner.trans ?_ (.of_eq (State.quietGrant_rail _).scanner))
    intro ok
    rw [Scanner.ok_iff] at ok ⊢
    exact ⟨ok.1, ok.2.1, fun _ => ⟨none', rfl⟩⟩
  · exact stops

theorem State.takeSettle_keeps (s : State) : KeepsScanner s s.takeSettle := by
  unfold State.takeSettle
  split
  · exact s.settleExpires_keeps
  · exact id

theorem State.takePlaybackTick_keeps (s : State) : KeepsScanner s s.takePlaybackTick := by
  unfold State.takePlaybackTick
  split
  · exact .of_eq s.playbackTick_play.scanner
  · exact id

theorem State.takeInterByte_keeps (s : State) : KeepsScanner s s.takeInterByte := by
  unfold State.takeInterByte
  split <;> exact id

theorem State.foldl_keeps {α : Type} (f : State → α → State) (keeps : ∀ s a, KeepsScanner s (f s a)) (l : List α)
    (s : State) : KeepsScanner s (l.foldl f s) := by
  induction l generalizing s with
  | nil => exact id
  | cons a l ih => exact (keeps s a).trans (ih (f s a))

theorem State.takeKeyLeftovers_keeps (s : State) (key : Key) : KeepsScanner s (s.takeKeyLeftovers key) :=
  ((((s.takeCrossing_keeps key .g2).trans (State.takeCrossing_keeps key .g1 _)).trans
    (State.takeCrossing_keeps key .g2 _)).trans (State.takeStale_keeps key _)).trans (State.takeGuard_keeps key _)

theorem State.takeTickLeftovers_keeps (s : State) : KeepsScanner s s.takeTickLeftovers :=
  (((State.foldl_keeps _ State.takeKeyLeftovers_keeps allKeys s).trans (State.takeSettle_keeps _)).trans
    (State.takePlaybackTick_keeps _)).trans (State.takeInterByte_keeps _)

theorem State.tick_scanner (g1 g2 : BitVec 88) (s : State) : (s.tick g1 g2).scanner = { s.scanner with
    keys := mapTableIx (fun i k => { k with
      g1 := k.g1.sample (g1.getLsbD i.val), g2 := k.g2.sample (g2.getLsbD i.val) }) s.scanner.keys
    settle := runDown s.scanner.settle } := rfl

theorem State.tick_keeps (g1 g2 : BitVec 88) (s : State) : KeepsScanner s (s.tick g1 g2) := by
  intro ok
  rw [State.tick_scanner]
  refine Scanner.ok_of_sameFlight ok (fun k => ?_) rfl rfl fun h => by rw [h]; rfl
  simp only [Fin.getElem_fin, mapTableIx_getElem]
  exact ⟨rfl, rfl, rfl, id⟩

/-! ### A scan -/

theorem State.scanSensors_keeps (samples : ScanSamples) (s : State) : KeepsScanner s (s.scanSensors samples) := by
  have keys : KeepsScanner s (s.keysScanned samples) := by
    refine State.onScanner_keeps _ (s.onTouch _) (fun k => ?_) rfl rfl id
    simp only [State.onTouch_scanner, Fin.getElem_fin, mapTable_getElem, mapTableIx_getElem]
    exact KeyRecord.scan_sameFlight ..
  exact keys.trans (.of_eq (s.scanSensors_pedalWork samples).scanner)

theorem State.sostenutoTurns_play (s : State) : PlayWork s s.sostenutoTurns := by
  simp only [State.sostenutoTurns]
  split
  · exact ((s.onPedals_work _).trans (State.onPedals_work _ _)).trans (State.mergePedals_play _)
  · exact s.onPedals_work _

theorem State.takeSostenuto_play (s : State) : PlayWork s s.takeSostenuto := by
  simp only [State.takeSostenuto]
  split
  · split
    · exact (s.sostenutoTurns_play.trans (State.offerSostenuto_play _)).trans (State.offerUnaCorda_play _)
    · exact s.sostenutoTurns_play
  · exact PlayWork.refl s

/-- The tables and the Scanner when rest learning completes (R20, R21), before the operation ends. -/
def State.learned (l : RestLearning) (s : State) : State :=
  { s with
    touch := { s.touch with table := mapTableIx (fun i e => { e with rest := l.sensors[i.val].restOr e.rest }) s.touch.table }
    pedals := { s.pedals with
      damperRest := l.sensors[88].restOr s.pedals.damperRest, unaCordaRest := l.sensors[89].restOr s.pedals.unaCordaRest }
    scanner := { s.scanner with ready := true, learning := none } }

/-- In STARTUP the load's summary is part of the result (R188). -/
theorem State.completeLearning_startup (l : RestLearning) (s : State) (slot : s.link.slot = .running .startup) :
    s.completeLearning l = (s.learned l).endOperation .complete (.startup s.wave.summary l.details) := by
  simp only [State.completeLearning, State.onScanner_link, State.onPedals_link, State.onTouch_link, slot]
  simp only [State.onScanner, State.onPedals, State.onTouch, State.learned]

theorem State.completeLearning_alone (l : RestLearning) (s : State) (slot : s.link.slot ≠ .running .startup) :
    s.completeLearning l = (s.learned l).endOperation .complete (.rest l.details) := by
  simp only [State.completeLearning, State.onScanner_link, State.onPedals_link, State.onTouch_link]
  simp only [State.onScanner, State.onPedals, State.onTouch, State.learned]

theorem State.completeLearning_keeps (l : RestLearning) (s : State) : KeepsScanner s (s.completeLearning l) := by
  have learned : KeepsScanner s (s.learned l) := fun ok => Scanner.ok_of_sameFlight ok (fun k => .refl _) rfl rfl id
  by_cases slot : s.link.slot = .running .startup
  · rw [s.completeLearning_startup l slot]
    exact learned.trans (.of_eq (State.endOperation_scanner _ _ _))
  · rw [s.completeLearning_alone l slot]
    exact learned.trans (.of_eq (State.endOperation_scanner _ _ _))

theorem State.takeLearning_keeps (s : State) : KeepsScanner s s.takeLearning := by
  unfold State.takeLearning
  split
  · split
    · exact s.completeLearning_keeps _
    · exact id
  · exact id

theorem State.takeScanLeftovers_keeps (s : State) : KeepsScanner s s.takeScanLeftovers :=
  KeepsScanner.trans (.of_eq ((State.takeSwitch_rail .closed _).scanner.trans
    ((State.takeSwitch_rail .opened _).scanner.trans s.takeSostenuto_play.scanner))) (State.takeLearning_keeps _)

theorem State.scan_keeps (samples : ScanSamples) (s : State) : KeepsScanner s (s.scan samples) :=
  (s.takeScanLeftovers_keeps.trans (State.scanSensors_keeps samples _)).trans
    (State.onLearning_keeps _ (((s.takeScanLeftovers.scanSensors samples)).scanSwitches samples) rfl)

end Sys2Proof.Machine
end

section
/-! PROOFS. Every request, every event and so every step keeps the Action Scanner's invariant. -/

namespace Sys2Proof.Machine

/-! ### Requests -/

/-- The state in which a served request leaves the blocks. -/
def Served.after : Served → State
  | .reply _ _ s => s
  | .waiting s => s

theorem State.conclude_scanner (kind : Byte) (thenReset : Bool) (v : Served) :
    (State.conclude kind thenReset v).scanner = v.after.scanner := by
  cases v <;> rfl

theorem KeyRecord.clearCounters_sameFlight (k : KeyRecord) : k.SameFlight k.clearCounters := ⟨rfl, rfl, rfl, id⟩

theorem serveGetKeyCounters_keeps (first count : Byte) (s : State) :
    KeepsScanner s (serveGetKeyCounters first count s).after := by
  unfold serveGetKeyCounters
  split
  · refine State.onScanner_keeps (fun c => { c with keys := mapTableIx (fun k r =>
      if inRun first.toNat count.toNat k.val then r.clearCounters else r) c.keys }) s (fun k => ?_) rfl rfl id
    simp only [Fin.getElem_fin, mapTableIx_getElem]
    split
    · exact KeyRecord.clearCounters_sameFlight _
    · exact .refl _
  · exact id

theorem State.setUpMove_scanner (target origin : RailEnd) (s : State) : (s.setUpMove target origin).scanner = s.scanner :=
  (State.quietGrant_rail _).scanner

theorem serveSetRailMode_keeps (code : Byte) (s : State) : KeepsScanner s (serveSetRailMode code s).after := by
  unfold serveSetRailMode
  split
  · exact id
  · split
    case h_2 | h_4 => exact .of_eq (State.setUpMove_scanner _ _ s)
    case h_5 => split <;> exact id
    all_goals exact id

theorem serveClearRailFault_keeps (s : State) : KeepsScanner s (serveClearRailFault s).after := by
  unfold serveClearRailFault
  split
  · split
    · exact id
    · exact .of_eq s.enterHoming_rail.scanner
  · exact id

theorem State.beginLearning_keeps (s : State) : KeepsScanner s s.beginLearning := State.onLearning_keeps _ s rfl

theorem State.abortLearning_keeps (s : State) : KeepsScanner s s.abortLearning := State.onLearning_keeps _ s rfl

theorem State.startOperation_keeps (op : Operation) (s : State) : KeepsScanner s (s.startOperation op) := by
  cases op with
  | startup => exact .of_eq (State.beginLoad_wave _).scanner
  | loadZones => exact .of_eq (State.beginLoad_wave _).scanner
  | learnRest => exact State.beginLearning_keeps (s.beginOperation .learnRest)
  | railCalibrate => exact .of_eq (State.quietGrant_rail _).scanner

theorem serveStartOperation_keeps (code : Byte) (s : State) : KeepsScanner s (serveStartOperation code s).after := by
  unfold serveStartOperation
  split
  · exact id
  · split
    · exact id
    · split
      · exact id
      · exact s.startOperation_keeps _

theorem State.abortCalibration_scanner (s : State) : s.abortCalibration.scanner = s.scanner := by
  unfold State.abortCalibration
  split
  case h_3 => exact (State.quietGrant_rail _).scanner
  all_goals rfl

theorem State.abortOperation_keeps (op : Operation) (s : State) : KeepsScanner s (s.abortOperation op) := by
  cases op with
  | loadZones => exact .of_eq ((State.endOperation_scanner _ _ _).trans s.abortLoad_wave.scanner)
  | learnRest => exact s.abortLearning_keeps.trans (.of_eq (State.endOperation_scanner _ _ _))
  | railCalibrate => exact .of_eq ((State.endOperation_scanner _ _ _).trans s.abortCalibration_scanner)
  | startup =>
    simp only [State.abortOperation]
    split
    · exact .of_eq ((State.endOperation_scanner _ _ _).trans s.abortLoad_wave.scanner)
    · exact s.abortLearning_keeps.trans (.of_eq (State.endOperation_scanner _ _ _))

theorem serveAbortOperation_keeps (s : State) : KeepsScanner s (serveAbortOperation s).after := by
  unfold serveAbortOperation
  split
  · exact s.abortOperation_keeps _
  · exact id

theorem serveRecordStart_scanner (mask : Byte) (s : State) : (serveRecordStart mask s).after.scanner = s.scanner := by
  unfold serveRecordStart
  split
  · rfl
  · split
    · rfl
    · exact (State.offerOpening_play _).scanner

theorem serveReadWaveStore_scanner (address : Long) (count : Byte) (s : State) :
    (serveReadWaveStore address count s).after.scanner = s.scanner := by
  unfold serveReadWaveStore
  split
  · exact (State.arbitrate_wave _).scanner
  · rfl

theorem servePlayStart_scanner (segment : Byte) (s : State) : (servePlayStart segment s).after.scanner = s.scanner := by
  unfold servePlayStart
  split
  · rfl
  · split
    · exact (s.startPlay_play _).scanner
    · rfl

theorem servePlayResume_scanner (s : State) : (servePlayResume s).after.scanner = s.scanner := by
  unfold servePlayResume
  split
  · exact (State.reloadTempo_play _).scanner
  · rfl
  · rfl

theorem servePlayStop_scanner (s : State) : (servePlayStop s).after.scanner = s.scanner := by
  unfold servePlayStop
  split
  case h_5 => rfl
  all_goals exact s.playbackClearing_play.scanner

theorem serveSetRegulation_scanner (first count : Byte) (entries : List RegFields) (s : State) :
    (serveSetRegulation first count entries s).after.scanner = s.scanner := by
  unfold serveSetRegulation
  split
  · split
    · simp only [Served.after, Served.ok, State.onTouch_scanner]
    · rfl
  · rfl

/-- Every request keeps the Scanner's invariant: most leave the Scanner alone. -/
theorem serveRequest_keeps (r : Request) (s : State) : KeepsScanner s (serveRequest r s).after := by
  cases r with
  | getKeyCounters first count => exact serveGetKeyCounters_keeps first count s
  | startOperation code => exact serveStartOperation_keeps code s
  | abortOperation => exact serveAbortOperation_keeps s
  | setRailMode code => exact serveSetRailMode_keeps code s
  | setRegulation first count entries => exact .of_eq (serveSetRegulation_scanner first count entries s)
  | clearRailFault => exact serveClearRailFault_keeps s
  | recordStart mask => exact .of_eq (serveRecordStart_scanner mask s)
  | readWaveStore address count => exact .of_eq (serveReadWaveStore_scanner address count s)
  | playStart segment => exact .of_eq (servePlayStart_scanner segment s)
  | playResume => exact .of_eq (servePlayResume_scanner s)
  | playStop => exact .of_eq (servePlayStop_scanner s)
  | _ =>
    simp only [serveRequest, serveGetIdentity, serveGetStatus, serveResetPart, serveReadNotices, serveClearNotices,
      serveSetNoticeMask, serveGetOperationResult, serveGetKeyState, serveGetRegulation,
      serveSetTouchCurve, serveGetTouchCurve, serveGetPedalState, serveSetPedalMap, serveSetRailDrive, serveGetRailState,
      serveSetSoundOptions, serveGetVoiceState, serveGetZone, serveSetOutputGain, serveSetRoute, serveGetOutput,
      serveRecordStop, serveRecordFlush, serveReadRecordBlock, serveWritePassage, serveReadPassage, serveWriteSegment,
      serveReadSegment, serveSetSplit, serveSetMasterTempo, servePlayPause, servePlayReset, serveGetPlayStatus]
    repeat' split
    all_goals exact id

/-! ### The dispatcher and the receiver -/

theorem State.takeRequest_keeps (r : Request) (s : State) : KeepsScanner s (s.takeRequest r) := by
  unfold State.takeRequest
  split
  · exact (serveRequest_keeps r s).trans (.of_eq (State.conclude_scanner _ _ _))
  · exact id

theorem State.takeBody_keeps (body : List Byte) (s : State) : KeepsScanner s (s.takeBody body) := by
  unfold State.takeBody
  split
  · exact id
  · exact id
  · exact s.takeRequest_keeps _

theorem State.pump_keeps (s : State) : KeepsScanner s s.pump := by
  unfold State.pump
  split
  · exact State.takeBody_keeps _ (s.onLink _)
  · exact id

theorem State.offerBody_keeps (body : List Byte) (s : State) : KeepsScanner s (s.offerBody body) := by
  unfold State.offerBody
  split
  · exact State.pump_keeps (s.onLink _)
  · exact id

theorem State.arrive_keeps (r : Request) (s : State) : KeepsScanner s (s.arrive r) := by
  unfold State.arrive
  split
  · exact s.takeRequest_keeps r
  · exact s.offerBody_keeps _

theorem State.arriveBody_keeps (kind : Byte) (payload : List Byte) (s : State) : KeepsScanner s (s.arriveBody kind payload) := by
  unfold State.arriveBody
  split
  · exact s.takeBody_keeps _
  · exact s.offerBody_keeps _

theorem State.takeByte_keeps (b : Byte) (s : State) : KeepsScanner s (s.takeByte b) := by
  unfold State.takeByte
  split
  · split <;> exact id
  · split <;> exact id
  · exact id
  · unfold State.frameComplete
    extract_lets t
    split
    · exact State.offerBody_keeps _ t
    · exact id

theorem State.brokenByte_keeps (s : State) : KeepsScanner s s.brokenByte := by
  unfold State.brokenByte
  split <;> exact id

/-! ### Part reset (R1, R17, R193) -/

theorem KeyRecord.resetAt_zoneOk (g1 g2 : Bool) : (KeyRecord.resetAt g1 g2).zoneOk := ⟨rfl, fun _ => rfl⟩

theorem Scanner.resetAt_ok (pins : Pins) : (Scanner.resetAt pins).ok := by
  rw [Scanner.ok_iff]
  refine ⟨fun k => ?_, by simp only [Scanner.resetAt], nofun⟩
  simp only [Scanner.resetAt, Fin.getElem_fin, Vector.getElem_ofFn]
  exact KeyRecord.resetAt_zoneOk _ _

theorem State.partReset_ok (pins : Pins) (s : State) : (s.partReset pins).scanner.ok := by
  unfold State.partReset
  rw [(State.enterHoming_rail _).scanner]
  exact Scanner.resetAt_ok pins

/-- The reset values are those of gates all BELOW. -/
theorem Scanner.reset_ok : Scanner.reset.ok := by
  have same : ∀ k : Key, Scanner.reset.keys[k] = KeyRecord.reset := fun k => by simp [Scanner.reset]
  rw [Scanner.ok_iff]
  refine ⟨fun k => ?_, ?_, nofun⟩
  · rw [same]
    exact ⟨rfl, fun _ => rfl⟩
  · simp only [inFlight, same]
    rfl

theorem State.replySent_keeps (pins : Pins) (s : State) : KeepsScanner s (s.replySent pins) := by
  unfold State.replySent
  split
  · exact fun _ => s.partReset_ok pins
  · exact State.pump_keeps (s.onLink _)
  · exact id

/-! ### Events and the step -/

theorem State.confirmSostenuto_scanner (sample : Sample) (s : State) : (s.confirmSostenuto sample).scanner = s.scanner := by
  unfold State.confirmSostenuto
  split
  · exact s.takeSostenuto_play.scanner
  · split
    · exact s.sostenutoTurns_play.scanner
    · rfl

theorem State.takeStrike_scanner (source : Source) (key : Key) (level : Byte) (s : State) :
    (s.takeStrike source key level).scanner = s.scanner := by
  obtain ⟨v, w, h⟩ := s.takeStrike_frame source key level
  rw [h]

theorem State.takeRelease_scanner (source : Source) (key : Key) (level : Byte) (s : State) :
    (s.takeRelease source key level).scanner = s.scanner := by
  obtain ⟨v, h⟩ := s.takeRelease_frame source key level
  rw [h]

theorem State.takeRequestOf_scanner (source : Source) (n : NoteRequest) (take : State → State) (s : State)
    (same : ∀ t, (take t).scanner = t.scanner) : (s.takeRequestOf source n take).scanner = s.scanner := by
  unfold State.takeRequestOf
  split
  · exact same (s.onVoice _)
  · rfl

theorem State.envelopeTick_scanner (s : State) : s.perfTick.envelope.scanner = s.scanner :=
  (State.envelope_wave _).scanner.trans s.takeMoveTimer_rail.scanner

theorem State.fetchArrives_scanner (data : List Byte) (s : State) : (s.fetchArrives data).scanner = s.scanner := by
  unfold State.fetchArrives
  split
  · split
    · refine (State.freePort_wave _).scanner.trans ?_
      split
      · exact (s.fetchTaken_wave _ data).scanner
      · rfl
    · rfl
  · rfl

/-- A load's end begins the learning step in STARTUP (R111, R188), and changes the Scanner no further. -/
theorem State.endLoad_keeps (summary : LoadSummary) (s : State) : KeepsScanner s (s.endLoad summary) := by
  unfold State.endLoad
  extract_lets t u
  have same : u.scanner = s.scanner := State.raiseIf_scanner _ _ t
  split
  · exact .of_eq ((State.endOperation_scanner _ _ u).trans same)
  · exact .trans (.of_eq same) u.beginLearning_keeps
  · exact .of_eq same

theorem State.loadTakes_keeps (data : List Byte) (s : State) : KeepsScanner s (s.loadTakes data) := by
  unfold State.loadTakes
  split
  · exact id
  · split
    · unfold State.headerArrives
      extract_lets count total
      split
      · split
        · exact s.endLoad_keeps _
        · exact id
      · exact s.endLoad_keeps _
    · unfold State.entriesArrive
      extract_lets entries valid done skipped t
      split
      · exact State.endLoad_keeps _ t
      · exact id

theorem State.loadReadArrives_keeps (data : List Byte) (s : State) : KeepsScanner s (s.loadReadArrives data) := by
  unfold State.loadReadArrives
  split
  · split
    · refine KeepsScanner.trans ?_ (.of_eq (State.freePort_wave _).scanner)
      split
      · exact id
      · exact s.loadTakes_keeps data
    · exact id
  · exact id

theorem State.diagnosticArrives_scanner (data : List Byte) (s : State) : (s.diagnosticArrives data).scanner = s.scanner := by
  unfold State.diagnosticArrives
  split
  · split
    · extract_lets t
      have same : t.scanner = s.scanner := s.freePort_wave.scanner
      split <;> exact same
    · rfl
  · rfl

/-- What a command does in a part not held in reset. -/
theorem unlessReset_keeps (f : State → State) (s t : State) (keeps : KeepsScanner s (f s)) (h : unlessReset f s = .next t) :
    KeepsScanner s t := by
  unfold unlessReset at h
  cases h
  split
  · exact id
  · exact keeps

/-- Every command keeps the Scanner's invariant. -/
theorem exec_keepsScanner (c : Instr) (s t : State) (h : exec c s = .next t) : KeepsScanner s t := by
  cases c with
  | resetNLow => cases h; exact fun _ => Scanner.reset_ok
  | resetNHigh pins =>
    cases h
    split
    · exact fun _ => s.partReset_ok pins
    · exact id
  | receiveByte byte stopHigh =>
    refine unlessReset_keeps _ s t ?_ h
    split
    · exact s.takeByte_keeps byte
    · exact s.brokenByte_keeps
  | interByteTimerExpiry => exact unlessReset_keeps _ s t s.takeInterByte_keeps h
  | replySent pins => exact unlessReset_keeps _ s t (s.replySent_keeps pins) h
  | unknownKind kind payload => exact unlessReset_keeps _ s t (s.arriveBody_keeps kind payload) h
  | scan samples => exact unlessReset_keeps _ s t (s.scan_keeps samples) h
  | learnRestComplete => exact unlessReset_keeps _ s t s.takeLearning_keeps h
  | sostenutoConfirmed sample => exact unlessReset_keeps _ s t (.of_eq (s.confirmSostenuto_scanner sample)) h
  | gateCrossing key gate => exact unlessReset_keeps _ s t (s.takeCrossing_keeps key gate) h
  | staleMarkSet key => exact unlessReset_keeps _ s t (s.takeStale_keeps key) h
  | guardMarkSet key => exact unlessReset_keeps _ s t (s.takeGuard_keeps key) h
  | settleTimerExpiry => exact unlessReset_keeps _ s t s.takeSettle_keeps h
  | endSwitchConfirmed switch => exact unlessReset_keeps _ s t (.of_eq (s.takeSwitch_rail switch).scanner) h
  | railGuardAsserted =>
    cases h
    split
    · exact id
    · exact .of_eq (State.railFaults_rail _ _).scanner
  | railGuardReleased => cases h; exact id
  | moveTimerExpiry => exact unlessReset_keeps _ s t (.of_eq s.takeMoveTimer_rail.scanner) h
  | voiceStrike source key level =>
    exact unlessReset_keeps _ s t (.of_eq (s.takeRequestOf_scanner _ _ _ (State.takeStrike_scanner source key level))) h
  | voiceRelease source key level =>
    exact unlessReset_keeps (State.takeRequestOf source (.release key level) (State.takeRelease source key level)) s t
      (.of_eq (s.takeRequestOf_scanner _ _ _ (State.takeRelease_scanner source key level))) h
  | envelopeTick => exact unlessReset_keeps (fun s => s.perfTick.envelope) s t (.of_eq s.envelopeTick_scanner) h
  | audioFrame =>
    cases h
    split
    · exact id
    · obtain ⟨a, v, w, e⟩ := s.audioFrame_frame
      exact .of_eq (by rw [e])
  | fetchArrival data => exact unlessReset_keeps _ s t (.of_eq (s.fetchArrives_scanner data)) h
  | loadReadArrival data => exact unlessReset_keeps _ s t (s.loadReadArrives_keeps data) h
  | diagnosticReadArrival data => exact unlessReset_keeps _ s t (.of_eq (s.diagnosticArrives_scanner data)) h
  | playbackTick => exact unlessReset_keeps _ s t s.takePlaybackTick_keeps h
  | gateSample g1 g2 =>
    exact unlessReset_keeps (fun s => s.takeTickLeftovers.tick g1 g2) s t
      (s.takeTickLeftovers_keeps.trans (State.tick_keeps g1 g2 _)) h
  | _ => exact unlessReset_keeps _ s t (s.arrive_keeps _) h

/-- Settles O57: every command keeps the invariant, and a step takes one command or idles. -/
theorem everyStepKeepsTheScanner : Obligations.EveryStepKeepsTheScanner := by
  intro s t ok h
  unfold step at h
  split at h
  · cases h
    exact ok
  · exact exec_keepsScanner _ _ t h ok

end Sys2Proof.Machine
end

section
/-! PROOFS. GATE_CROSSING (R4 to R7, R13, R17 to R19): which crossing is taken, and what a rise of G2 and each fall leave. -/

namespace Sys2Proof.Machine

theorem unlessReset_on (f : State → State) (s : State) (on : s.inReset = false) : unlessReset f s = .next (f s) := by
  rw [unlessReset, on]
  rfl

/-! ### Which crossing is taken (R5) -/

theorem exec_gateCrossing_due (key : Key) (g : Gate) (s : State) (on : s.inReset = false)
    (due : s.scanner.keys[key].crossingDue g = true) : exec (.gateCrossing key g) s = .next (s.crossing key g) := by
  exact (unlessReset_on (State.takeCrossing key g) s on).trans (congrArg _ (if_pos due))

theorem exec_gateCrossing_notDue (key : Key) (g : Gate) (s : State) (on : s.inReset = false)
    (notDue : s.scanner.keys[key].crossingDue g = false) : exec (.gateCrossing key g) s = .next s := by
  exact (unlessReset_on (State.takeCrossing key g) s on).trans (congrArg _ (if_neg (Bool.eq_false_iff.1 notDue)))

theorem GateFilter.due_iff (f : GateFilter) : f.due = true ↔ f.count = 3 := by
  exact decide_eq_true_iff

theorem GateFilter.not_due {f : GateFilter} (h : f.count < 3) : f.due = false := by
  rw [← Bool.not_eq_true, GateFilter.due_iff]
  omega

/-! ### The Scanner after a crossing (R17, R18) -/

/-- A rise beside another gate that is ABOVE or not: the first of the two starts a flight. -/
theorem Scanner.zoneChanged_rise (old new : Zone) (stamp : Stamp) (c : Scanner) (other : Bool) (up : old = .low ↔ other = false)
    (flying : new ≠ .low) : Scanner.zoneChanged old new stamp c
      = { c with flightCount := c.flightCount + (if other then 0 else 1), quiet := other && c.quiet } := by
  unfold Scanner.zoneChanged
  cases other with
  | false => simp [up, flying]
  | true => simp [up, flying]

theorem Scanner.zoneChanged_lands (old : Zone) (stamp : Stamp) (c : Scanner) (flew : old ≠ .low) :
    Scanner.zoneChanged old .low stamp c = { c with
      flightCount := c.flightCount - 1, quiet := false, lastLanding := some stamp, settle := some 20000 } := by
  simp [Scanner.zoneChanged, flew, Config.settleTime]

theorem Scanner.zoneChanged_flies (old new : Zone) (stamp : Stamp) (c : Scanner) (flew : old ≠ .low) (flies : new ≠ .low) :
    Scanner.zoneChanged old new stamp c = c := by
  simp [Scanner.zoneChanged, flew, flies]

/-- A key's zone in a Scanner that meets its invariant (R6). -/
theorem Scanner.ok.zone_low {c : Scanner} (ok : c.ok) (key : Key) :
    c.keys[key].zone = .low ↔ c.keys[key].g1.above = false ∧ c.keys[key].g2.above = false := by
  rw [ok.1 key, zoneOfLevels_eq_low]

/-! ### The state after a crossing -/

/-- The state with one key's record replaced after a crossing, and the flight counted. -/
def State.crossed (key : Key) (r : KeyRecord) (s : State) : State :=
  { s with scanner :=
    Scanner.zoneChanged s.scanner.keys[key].zone r.zone (s.actionClock - 2) { s.scanner with keys := s.scanner.keys.set key r } }

/-- The crossing of a gate's record, with what this state gives it. -/
def State.crossRecord (key : Key) (g : Gate) (s : State) : KeyRecord × List NoteRequest :=
  s.scanner.keys[key].cross key g (s.keyActive key) (guardLength s.rail.state) (s.actionClock - 2) (s.touchLevelOf key)

theorem State.crossing_g1 (key : Key) (s : State) : s.crossing key .g1
    = (s.crossRecord key .g1).2.foldl (fun t n => t.emitLive n) (s.crossed key (s.crossRecord key .g1).1) := rfl

theorem State.crossing_g2_rise (key : Key) (s : State) (below : s.scanner.keys[key].g2.above = false) :
    s.crossing key .g2 = State.g2Report
      ((s.crossRecord key .g2).2.foldl (fun t n => t.emitLive n) (s.crossed key (s.crossRecord key .g2).1)) :=
  if_pos (by rw [below]; rfl)

theorem State.crossing_g2_fall (key : Key) (s : State) (above : s.scanner.keys[key].g2.above = true) :
    s.crossing key .g2
      = (s.crossRecord key .g2).2.foldl (fun t n => t.emitLive n) (s.crossed key (s.crossRecord key .g2).1) :=
  if_neg (by rw [above]; exact Bool.false_ne_true)

/-- A record that a rise leaves in flight: the flight is counted from the other gate's level. -/
theorem State.crossed_rise (key : Key) (s : State) (ok : s.scanner.ok) (r : KeyRecord) (flies : r.zone ≠ .low) (other : Bool)
    (levels : s.scanner.keys[key].g1.above = false ∧ s.scanner.keys[key].g2.above = false ↔ other = false) :
    s.crossed key r = { s with scanner := { s.scanner with
      keys := s.scanner.keys.set key r
      flightCount := s.scanner.flightCount + (if other then 0 else 1)
      quiet := other && s.scanner.quiet } } := by
  unfold State.crossed
  rw [Scanner.zoneChanged_rise _ _ _ _ other ((ok.zone_low key).trans levels) flies]

/-- A record that a fall leaves in LOW: the landing is stamped and the settle timer restarts. -/
theorem State.crossed_lands (key : Key) (s : State) (r : KeyRecord) (flew : s.scanner.keys[key].zone ≠ .low)
    (lands : r.zone = .low) : s.crossed key r = { s with scanner := { s.scanner with
      keys := s.scanner.keys.set key r
      flightCount := s.scanner.flightCount - 1, quiet := false
      lastLanding := some (s.actionClock - 2), settle := some 20000 } } := by
  unfold State.crossed
  rw [lands, Scanner.zoneChanged_lands _ _ _ flew]

/-- A record that a fall leaves in flight. -/
theorem State.crossed_flies (key : Key) (s : State) (r : KeyRecord) (flew : s.scanner.keys[key].zone ≠ .low)
    (flies : r.zone ≠ .low) :
    s.crossed key r = { s with scanner := { s.scanner with keys := s.scanner.keys.set key r } } := by
  unfold State.crossed
  rw [Scanner.zoneChanged_flies _ _ _ _ flew flies]

/-! ### The lower gate's rise (R7, R17, R19) -/

theorem gateCrossing_g2_rise (key : Key) (s : State) (on : s.inReset = false) (ok : s.scanner.ok)
    (due : s.scanner.keys[key].crossingDue .g2 = true) (below : s.scanner.keys[key].g2.above = false) :
    exec (.gateCrossing key .g2) s = .next (State.g2Report { s with scanner := { s.scanner with
      keys := s.scanner.keys.set key { s.scanner.keys[key] with
        g2 := ⟨true, 0⟩, zone := zoneOfLevels s.scanner.keys[key].g1.above true
        g2Stamp := some ⟨s.actionClock - 2, false, false⟩ }
      flightCount := s.scanner.flightCount + (if s.scanner.keys[key].g1.above then 0 else 1)
      quiet := s.scanner.keys[key].g1.above && s.scanner.quiet } }) := by
  rw [exec_gateCrossing_due key .g2 s on due, s.crossing_g2_rise key below, State.crossRecord,
    KeyRecord.cross_g2_rise (below := below)]
  exact congrArg (fun t => Host.Outcome.next (State.g2Report t))
    (s.crossed_rise key ok _ (by simp [zoneOfLevels_eq_low]) s.scanner.keys[key].g1.above ⟨And.left, fun h => ⟨h, below⟩⟩)

/-- Settles O21: a G2 rise is one record, one change of the flight and one report, whose cases are the rail's states. -/
theorem lowerGateRiseReachesTheRail : Obligations.LowerGateRiseReachesTheRail := by
  refine ⟨fun s key on ok => ?_, fun s => ⟨fun o moving origin => ?_, fun homing => ?_, fun calibrating slot => ?_, ?_⟩⟩
  · intro k lower upper
    have below : k.g2.above = false := by rw [lower]
    have due : k.crossingDue .g2 = true := by
      have due2 : k.g2.due = true := by rw [lower]; rfl
      rcases upper with upper | upper
      · simp [KeyRecord.crossingDue, due2, GateFilter.not_due upper]
      · simp [KeyRecord.crossingDue, due2, upper]
    exact gateCrossing_g2_rise key s on ok due below
  · simp only [State.g2Report, moving, State.onRail, Rail.driving, origin, Option.getD_some]
  · simp only [State.g2Report, homing]
    rfl
  · rcases calibrating with h | h <;> simp only [State.g2Report, h, State.endOperation, State.onRail_link, slot] <;> rfl
  · intro h1 h2 h3 h4
    unfold State.g2Report
    split
    · exact absurd ‹_› h1
    · exact absurd ‹_› h2
    · exact absurd ‹_› h3
    · exact absurd ‹_› h4
    · rfl

/-! ### Falls (R6, R13, R17, R18) -/

/-- The missed excursion's count in the words of R13. -/
theorem KeyRecord.missedAfter_eq (active : Bool) (k : KeyRecord) (range : k.missed ≤ 65535) : k.missedAfter active
    = if active = true ∧ (k.phase = .travel ∨ k.phase = .rearmed) ∧ ∃ g, k.g2Stamp = some g ∧ g.reachedHigh = false
      then min 65535 (k.missed + 1) else k.missed := by
  have short : k.missedExcursion = true
      ↔ (k.phase = .travel ∨ k.phase = .rearmed) ∧ ∃ g, k.g2Stamp = some g ∧ g.reachedHigh = false := by
    unfold KeyRecord.missedExcursion Phase.canStrike
    cases k.g2Stamp <;> simp
  simp only [KeyRecord.missedAfter, Bool.and_eq_true, short, bump_eq_min _ range]

/-- Settles O22: each fall is one of the record's four, and of two due together the other one waits. -/
theorem landingsRestartTheSettleTimer : Obligations.LandingsRestartTheSettleTimer := by
  intro s key on ok k active missed with' landed missedRange faultRange
  have flew : k.g1.above = true ∨ k.g2.above = true → k.zone ≠ .low := fun above low => by
    have levels := (ok.zone_low key).1 low
    rcases above with h | h
    · exact absurd (levels.1.symm.trans h) Bool.false_ne_true
    · exact absurd (levels.2.symm.trans h) Bool.false_ne_true
  have missedIs : k.missedAfter active = missed := k.missedAfter_eq active missedRange
  refine ⟨fun lower below => ?_, fun upper below => ?_, fun upper mid => ?_, fun lower high first => ?_, fun upper lower => ?_,
    fun upper lower => ?_⟩
  · have above : k.g2.above = true := by rw [lower]
    have due : k.crossingDue .g2 = true := by simp [KeyRecord.crossingDue, GateFilter.due, Config.agreeing, lower, below]
    rw [exec_gateCrossing_due key .g2 s on due, s.crossing_g2_fall key above, State.crossRecord,
      KeyRecord.cross_g2_lands (above := above) (below := below) (flying := flew (.inr above))]
    rw [← missedIs]
    exact congrArg _ (s.crossed_lands key _ (flew (.inr above)) rfl)
  · have above : k.g1.above = true := by rw [upper]
    have due : k.crossingDue .g1 = true := by simp [KeyRecord.crossingDue, GateFilter.due, Config.agreeing, upper]
    rw [exec_gateCrossing_due key .g1 s on due, s.crossing_g1 key, State.crossRecord,
      KeyRecord.cross_g1_lands (above := above) (below := below) (flying := flew (.inl above))]
    rw [← missedIs]
    exact congrArg _ (s.crossed_lands key _ (flew (.inl above)) rfl)
  · have above : k.g1.above = true := by rw [upper]
    have due : k.crossingDue .g1 = true := by simp [KeyRecord.crossingDue, GateFilter.due, Config.agreeing, upper]
    rw [exec_gateCrossing_due key .g1 s on due, s.crossing_g1 key, State.crossRecord,
      KeyRecord.cross_g1_fall_mid (above := above) (mid := mid)]
    exact congrArg _ (s.crossed_flies key _ (flew (.inl above)) nofun)
  · have above : k.g2.above = true := by rw [lower]
    have due : k.crossingDue .g2 = true := by
      have due2 : k.g2.due = true := by rw [lower]; rfl
      simp [KeyRecord.crossingDue, due2, GateFilter.not_due first]
    rw [exec_gateCrossing_due key .g2 s on due, s.crossing_g2_fall key above, State.crossRecord,
      KeyRecord.cross_g2_fall_high (above := above) (high := high), bump_eq_min _ faultRange]
    exact congrArg _ (s.crossed_flies key _ (flew (.inl high)) nofun)
  · have lowerDue : k.g2.due = true := k.g2.due_iff.2 lower
    have waits : k.crossingDue .g1 = false := by simp [KeyRecord.crossingDue, upper, lowerDue]
    exact exec_gateCrossing_notDue key .g1 s on waits
  · have above : k.g1.above = true := by rw [upper]
    have upperDue : k.g1.due = true := by rw [upper]; rfl
    have waits : k.crossingDue .g2 = false := by simp [KeyRecord.crossingDue, above, upperDue]
    exact exec_gateCrossing_notDue key .g2 s on waits

end Sys2Proof.Machine
end

section
/-! PROOFS. The upper gate's rise (R10 to R14, R16, R20, R23): its class, the strike with its live events, and the counters of
the classes that are no strike. -/

namespace Sys2Proof.Machine

/-! ### The class of a G1 rise (R10, R11) -/

theorem Phase.canStrike_iff (p : Phase) : p.canStrike = true ↔ p = .travel ∨ p = .rearmed := by
  cases p <;> decide

theorem classify_orphan (guard : Nat) (stamp : Stamp) (k : KeyRecord) (phase : k.phase = .idle ∨ k.phase = .struck) :
    classify guard stamp k = .orphan := by
  unfold classify
  rcases phase with h | h <;> rw [h] <;> rfl

section
variable (guard : Nat) (stamp : Stamp) (k : KeyRecord) (phase : k.phase = .travel ∨ k.phase = .rearmed)
include phase

theorem classify_gateFault (absent : k.g2Stamp = none) : classify guard stamp k = .gateFault := by
  simp [classify, k.phase.canStrike_iff.2 phase, absent]

theorem classify_missed (g : G2Stamp) (present : k.g2Stamp = some g) (late : g.stale = true ∨ 40000 < ageOf stamp g.stamp) :
    classify guard stamp k = .missed := by
  have late : (g.stale || decide (Config.maxInterval < ageOf stamp g.stamp)) = true := by
    rcases late with h | h <;> simp [h, Config.maxInterval]
  simp only [classify, k.phase.canStrike_iff.2 phase, present, late, Bool.not_true, Bool.false_eq_true, if_false, if_true]

theorem classify_passes (g : G2Stamp) (present : k.g2Stamp = some g) (fresh : g.stale = false)
    (intime : ageOf stamp g.stamp ≤ 40000) : classify guard stamp k
      = if guardPassed guard stamp k.strikeStamp then .strike (ageOf stamp g.stamp) else .rebound := by
  have intime : ¬ 40000 < ageOf stamp g.stamp := by omega
  simp [classify, k.phase.canStrike_iff.2 phase, present, fresh, intime, Config.maxInterval]

end

/-- A strike passes the rebound guard, and only one held back by the guard is a rebound (R12). -/
theorem guardPassed_eq_true (length : Nat) (stamp : Stamp) (last : Option StrikeStamp) : guardPassed length stamp last = true
    ↔ ∀ st, last = some st → st.guardMark = true ∨ length ≤ ageOf stamp st.stamp := by
  cases last <;> simp [guardPassed]

/-! ### The command -/

/-- A key with a g2_stamp is not in LOW, so with G1 BELOW its G2 is ABOVE. -/
theorem Scanner.ok.lower_above {c : Scanner} (ok : c.ok) (key : Key) (below : c.keys[key].g1.above = false) {g : G2Stamp}
    (present : c.keys[key].g2Stamp = some g) : c.keys[key].g2.above = true := by
  by_contra h
  have absent := ok.2.1 key ((ok.zone_low key).2 ⟨below, Bool.not_eq_true _ ▸ h⟩)
  rw [present] at absent
  cases absent

/-- A key that is not active: the levels, the zone and the reached-high mark alone (R20, R23). -/
theorem KeyRecord.risen_inactive (key : Key) (guard : Nat) (stamp : Stamp) (level : Nat → Nat) (k : KeyRecord) :
    k.risen key false guard stamp level = ({ k with g1 := ⟨true, 0⟩, zone := .high }, []) := rfl

/-- An active key's crossing is classified with the record as it stood. -/
theorem KeyRecord.risen_active (key : Key) (guard : Nat) (stamp : Stamp) (level : Nat → Nat) (k : KeyRecord) :
    k.risen key true guard stamp level = (let up : KeyRecord := { k with g1 := ⟨true, 0⟩, zone := .high }
      match classify guard stamp k with
      | .strike interval => (up.strike stamp (level interval),
          (if k.phase = .rearmed then [NoteRequest.release key (BitVec.ofNat 8 k.lastRelease)] else [])
            ++ [.strike key (BitVec.ofNat 8 (level interval))])
      | .orphan => ({ up with orphan := bump k.orphan }, [])
      | .gateFault => ({ up with gateFault := bump k.gateFault }, [])
      | .missed => ({ up with missed := bump k.missed }, [])
      | .rebound => ({ up with rebound := bump k.rebound }, [])) := rfl

/-- The G1 crossing of a key whose G1 has risen for three samples, and whose G2 has no crossing due: the class's record and
events, with the reached-high mark and the gate fault of a raised G1 over a lowered G2. -/
theorem gateCrossing_g1_rise (key : Key) (s : State) (on : s.inReset = false) (ok : s.scanner.ok)
    (upper : s.scanner.keys[key].g1 = ⟨false, 3⟩) (first : s.scanner.keys[key].g2.count < 3)
    (r : KeyRecord) (events : List NoteRequest) (fault : Nat)
    (classed : s.scanner.keys[key].risen key (s.keyActive key) (guardLength s.rail.state) (s.actionClock - 2)
      (s.touchLevelOf key) = (r, events))
    (faulted : (if !s.scanner.keys[key].g2.above && s.keyActive key then bump s.scanner.keys[key].gateFault else r.gateFault)
      = fault) :
    exec (.gateCrossing key .g1) s = .next (events.foldl (fun t n => t.emitLive n) { s with scanner := { s.scanner with
      keys := s.scanner.keys.set key { r with
        g2Stamp := r.g2Stamp.map fun g => { g with reachedHigh := true }, gateFault := fault }
      flightCount := s.scanner.flightCount + (if s.scanner.keys[key].g2.above then 0 else 1)
      quiet := s.scanner.keys[key].g2.above && s.scanner.quiet } }) := by
  have below : s.scanner.keys[key].g1.above = false := by rw [upper]
  have due : s.scanner.keys[key].crossingDue .g1 = true := by
    have upperDue : s.scanner.keys[key].g1.due = true := by rw [upper]; rfl
    have lowerNot : s.scanner.keys[key].g2.due = false := GateFilter.not_due first
    simp only [KeyRecord.crossingDue, upperDue, lowerNot, Bool.not_false, Bool.true_or, Bool.and_true]
  have high := (KeyRecord.risen_levels key (s.keyActive key) (guardLength s.rail.state) (s.actionClock - 2)
    (s.touchLevelOf key) s.scanner.keys[key]).1
  have record : s.crossRecord key .g1 = ({ r with
      g2Stamp := r.g2Stamp.map fun g => { g with reachedHigh := true }, gateFault := fault }, events) := by
    rw [State.crossRecord, KeyRecord.cross_g1_rise (below := below), classed, ← faulted]
  rw [classed] at high
  rw [exec_gateCrossing_due key .g1 s on due, s.crossing_g1 key, record]
  refine congrArg (fun t => Host.Outcome.next (List.foldl (fun t n => State.emitLive n t) t events)) ?_
  refine s.crossed_rise key ok _ (fun low => ?_) s.scanner.keys[key].g2.above ⟨And.right, fun h => ⟨below, h⟩⟩
  rw [show r.zone = .low from low] at high
  cases high

/-- Settles O20: an inactive key is not classified, and each class of an active one counts once. -/
theorem crossingsAreClassified : Obligations.CrossingsAreClassified := by
  intro s key on ok k stamp guard risen fault next upper first ranges
  obtain ⟨orphans, faults, misses, rebounds⟩ := ranges
  have rise := gateCrossing_g1_rise key s on ok upper first
  let up : KeyRecord := { k with g1 := ⟨true, 0⟩, zone := .high }
  refine ⟨fun inactive => ?_, fun ready enabled => ?_⟩
  · have inactive : s.keyActive key = false := by
      rcases inactive with h | h <;> simp only [State.keyActive, h, Bool.false_and, Bool.and_false]
    exact rise up [] _ (by rw [inactive, KeyRecord.risen_inactive]) (by rw [inactive, Bool.and_false]; rfl)
  have active : s.keyActive key = true := by simp only [State.keyActive, ready, enabled, Bool.and_true]
  refine ⟨fun phase => ?_, fun phase => ⟨fun absent => ?_, fun g present => ?_⟩⟩
  · refine rise { up with orphan := min 65535 (k.orphan + 1) } [] fault
      (by rw [active, KeyRecord.risen_active, classify_orphan _ _ _ phase, ← bump_eq_min _ orphans]) ?_
    show (if !k.g2.above && s.keyActive key then bump k.gateFault else k.gateFault) = _
    rw [active, bump_eq_min _ faults]
    cases h : k.g2.above <;> simp only [fault, h] <;> rfl
  · exact rise { up with gateFault := min 65535 (k.gateFault + 1) } [] (min 65535 (k.gateFault + 1))
      (by rw [active, KeyRecord.risen_active, classify_gateFault _ _ _ phase absent, ← bump_eq_min _ faults])
      (by rw [← bump_eq_min _ faults, ite_self])
  · have lower := ok.lower_above key (by rw [upper]) present
    have noFault : ∀ n, (if !k.g2.above && s.keyActive key then bump k.gateFault else n) = n := fun n => by
      rw [lower]
      rfl
    refine ⟨fun late => ?_, fun fresh intime st last unmarked early => ?_⟩
    · exact rise { up with missed := min 65535 (k.missed + 1) } [] k.gateFault
        (by rw [active, KeyRecord.risen_active, classify_missed _ _ _ phase g present late, ← bump_eq_min _ misses])
        (noFault _)
    · have held : guardPassed guard stamp k.strikeStamp = false := by
        rw [← Bool.not_eq_true, guardPassed_eq_true]
        intro passed
        rcases passed st last with h | h
        · rw [unmarked] at h
          cases h
        · exact absurd early (not_lt.2 h)
      have rebound : classify guard stamp k = .rebound := by
        rw [classify_passes _ _ _ phase g present fresh intime, held]
        rfl
      exact rise { up with rebound := min 65535 (k.rebound + 1) } [] k.gateFault
        (by rw [active, KeyRecord.risen_active, show classify (guardLength s.rail.state) stamp k = _ from rebound,
          ← bump_eq_min _ rebounds]) (noFault _)

/-! ### The strike (R10, R12, R14, R16) -/

theorem State.emitLive_requests (n : NoteRequest) (s : State) :
    (s.emitLive n).voice.liveRequests = s.voice.liveRequests ++ [n] := by
  obtain ⟨p, d, r, v, m, k, h, -⟩ := s.emitLive_play n
  rw [h]
  rfl

theorem State.emitLive_rail (n : NoteRequest) (s : State) : (s.emitLive n).rail = s.rail := by
  obtain ⟨p, d, r, v, m, k, h, -⟩ := s.emitLive_play n
  rw [h]
  rfl

/-- Settles O19: the crossing passes every test of R10 and R12, its record is the struck one, and a repetition's RELEASE
goes before the STRIKE. -/
theorem strikesAreAccepted : Obligations.StrikesAreAccepted := by
  refine ⟨fun s key g on ok => ?_, fun s n => ⟨?_, ?_, s.emitLive_requests n, s.emitLive_scanner n, s.emitLive_rail n⟩⟩
  · intro k stamp interval guard level upper first ready enabled phase present fresh intime passes range struck released
    have active : s.keyActive key = true := by simp only [State.keyActive, ready, enabled, Bool.and_true]
    have lower : k.g2.above = true := ok.lower_above key (by rw [upper]) present
    have strikes : classify guard stamp k = .strike interval := by
      rw [classify_passes _ _ _ phase g present fresh intime, if_pos ((guardPassed_eq_true _ _ _).2 passes)]
      rfl
    let repetition := if k.phase = .rearmed then [NoteRequest.release key (BitVec.ofNat 8 k.lastRelease)] else []
    have rise := gateCrossing_g1_rise key s on ok upper first
      { k with
        g1 := ⟨true, 0⟩, zone := .high, phase := .struck, prevStrikeStamp := k.strikeStamp.map StrikeStamp.stamp
        strikeStamp := some ⟨stamp, false⟩, lastLevel := level, strikes := min 65535 (k.strikes + 1) }
      (repetition ++ [.strike key (BitVec.ofNat 8 level)]) k.gateFault
      (by rw [active, KeyRecord.risen_active, show classify (guardLength s.rail.state) stamp k = _ from strikes,
        ← bump_eq_min _ range]; rfl)
      (by rw [show s.scanner.keys[key].g2.above = true from lower]; rfl)
    rw [rise, show s.scanner.keys[key].g2.above = true from lower, present]
    show Host.Outcome.next (List.foldl (fun t n => State.emitLive n t) struck _) = _
    rw [List.foldl_append]
    by_cases again : k.phase = .rearmed
    · simp only [repetition, released, if_pos again, List.foldl]
    · simp only [repetition, released, if_neg again, List.foldl]
  · rintro key level rfl
    rfl
  · rintro key level rfl
    rfl

end Sys2Proof.Machine
end

section
/-! PROOFS. A tick of the action clock (R4), and the marks and the settle timer's expiry (R7, R12, R18). -/

namespace Sys2Proof.Machine

/-! ### The tick with nothing left due -/

/-- A key's record written back as it stands. -/
theorem State.updateKey_self (key : Key) (f : KeyRecord → KeyRecord) (s : State)
    (same : f s.scanner.keys[key] = s.scanner.keys[key]) :
    (s.onScanner fun c => { c with keys := updateAt key f c.keys }) = s := by
  simp only [State.onScanner, updateAt, same]
  simp only [Fin.getElem_fin, Vector.set_getElem_self]

theorem State.takeCrossing_notDue (key : Key) (g : Gate) (s : State)
    (upper : s.scanner.keys[key].g1.count < 3) (lower : s.scanner.keys[key].g2.count < 3) : s.takeCrossing key g = s := by
  have waits : s.scanner.keys[key].crossingDue g = false := by
    cases g
    · simp only [KeyRecord.crossingDue, GateFilter.not_due upper, Bool.false_and]
    · simp only [KeyRecord.crossingDue, GateFilter.not_due lower, Bool.false_and]
  simp only [State.takeCrossing, waits, Bool.false_eq_true, if_false]

theorem State.takeStale_notDue (key : Key) (s : State) (waits : s.scanner.keys[key].staleDue s.actionClock = false) :
    s.takeStale key = s :=
  s.updateKey_self key _ (by simp only [KeyRecord.takeStale, waits, Bool.false_eq_true, if_false])

theorem State.takeGuard_notDue (key : Key) (s : State) (waits : s.scanner.keys[key].guardDue s.actionClock = false) :
    s.takeGuard key = s :=
  s.updateKey_self key _ (by simp only [KeyRecord.takeGuard, waits, Bool.false_eq_true, if_false])

/-- With nothing left due, a tick takes nothing before it samples. -/
theorem State.takeTickLeftovers_clear (s : State) (clear : s.tickClear) : s.takeTickLeftovers = s := by
  obtain ⟨keys, settle, tempo, interByte⟩ := clear
  have key : ∀ k, s.takeKeyLeftovers k = s := fun k => by
    obtain ⟨upper, lower, stale, guard⟩ := keys k
    simp only [State.takeKeyLeftovers, s.takeCrossing_notDue k _ upper lower, s.takeStale_notDue k stale,
      s.takeGuard_notDue k guard]
  have all : ∀ l : List Key, l.foldl State.takeKeyLeftovers s = s := fun l => by
    induction l with
    | nil => rfl
    | cons k l ih => rw [List.foldl_cons, key, ih]
  simp only [State.takeTickLeftovers, all, State.takeSettle, State.takePlaybackTick, State.takeInterByte, if_neg settle,
    if_neg tempo, if_neg interByte]

/-- A sample at a gate whose crossing is not due. -/
theorem GateFilter.sample_eq (above : Bool) (f : GateFilter) (notDue : f.count < 3) :
    f.sample above = { f with count := if above = f.above then 0 else f.count + 1 } := by
  have room : min 3 (f.count + 1) = f.count + 1 := by omega
  simp only [GateFilter.sample, Config.agreeing, room]

/-- Settles O17: a tick with nothing left due is the sampling of the gates and the running of the timers. -/
theorem tickSamplesEveryGate : Obligations.TickSamplesEveryGate := by
  intro s g1 g2 on clear
  refine ⟨mapTableIx (fun i k => { k with
    g1 := k.g1.sample (g1.getLsbD i.val), g2 := k.g2.sample (g2.getLsbD i.val) }) s.scanner.keys, ?_, fun k => ?_⟩
  · refine (unlessReset_on (fun s => s.takeTickLeftovers.tick g1 g2) s on).trans ?_
    rw [s.takeTickLeftovers_clear clear]
    rfl
  · obtain ⟨upper, lower, -⟩ := clear.1 k
    simp only [Fin.getElem_fin, mapTableIx_getElem] at upper lower ⊢
    rw [GateFilter.sample_eq _ _ upper, GateFilter.sample_eq _ _ lower]

/-! ### The marks and the settle timer -/

/-- One key's record replaced. -/
theorem State.updateKey_eq (key : Key) (f : KeyRecord → KeyRecord) (s : State) :
    (s.onScanner fun c => { c with keys := updateAt key f c.keys })
      = { s with scanner := { s.scanner with keys := s.scanner.keys.set key (f s.scanner.keys[key]) } } := rfl

theorem KeyRecord.takeStale_eq (now stamp : Stamp) (high : Bool) (k : KeyRecord) (present : k.g2Stamp = some ⟨stamp, high, false⟩) :
    k.takeStale now = if 40003 ≤ (now - stamp).toNat then { k with g2Stamp := some ⟨stamp, high, true⟩ } else k := by
  have due : k.staleDue now = true ↔ 40003 ≤ (now - stamp).toNat := by
    rw [KeyRecord.staleDue, present]
    exact decide_eq_true_iff
  simp only [KeyRecord.takeStale, due, present, Option.map_some]

theorem KeyRecord.takeGuard_eq (now stamp : Stamp) (k : KeyRecord) (present : k.strikeStamp = some ⟨stamp, false⟩) :
    k.takeGuard now = if 20002 ≤ (now - stamp).toNat then { k with strikeStamp := some ⟨stamp, true⟩ } else k := by
  have due : k.guardDue now = true ↔ 20002 ≤ (now - stamp).toNat := by
    rw [KeyRecord.guardDue, present]
    exact decide_eq_true_iff
  simp only [KeyRecord.takeGuard, due, present, Option.map_some]

/-- Settles O18: a mark is set at its age, and the settle timer's expiry begins quiet with none in flight, whose grant is that
of the rail's state. -/
theorem expiriesAndMarksAreTakenWhenDue : Obligations.ExpiriesAndMarksAreTakenWhenDue := by
  refine ⟨fun s key on => ?_, fun s on => ?_⟩
  · intro with'
    have same : with' s.scanner.keys[key] = s := by
      simp only [with', Fin.getElem_fin, Vector.set_getElem_self]
    refine ⟨fun stamp high present => ?_, fun stamp present => ?_, fun absent => ?_, fun absent => ?_⟩
    · refine (unlessReset_on (State.takeStale key) s on).trans (congrArg _ ((s.updateKey_eq key _).trans ?_))
      show with' (KeyRecord.takeStale s.actionClock s.scanner.keys[key]) = _
      rw [KeyRecord.takeStale_eq _ _ _ _ present, apply_ite with', same]
    · refine (unlessReset_on (State.takeGuard key) s on).trans (congrArg _ ((s.updateKey_eq key _).trans ?_))
      show with' (KeyRecord.takeGuard s.actionClock s.scanner.keys[key]) = _
      rw [KeyRecord.takeGuard_eq _ _ _ present, apply_ite with', same]
    · exact (unlessReset_on (State.takeStale key) s on).trans
        (congrArg _ (s.takeStale_notDue key (by simp only [KeyRecord.staleDue, absent])))
    · exact (unlessReset_on (State.takeGuard key) s on).trans
        (congrArg _ (s.takeGuard_notDue key (by simp only [KeyRecord.guardDue, absent])))
  · rw [show exec .settleTimerExpiry s = .next s.takeSettle from unlessReset_on State.takeSettle s on]
    refine ⟨fun runs => ?_, fun due flying => ?_, fun due landed => ?_⟩
    · rw [State.takeSettle, if_neg runs]
    · rw [State.takeSettle, if_pos due]
      exact congrArg _ (if_neg flying)
    · rw [State.takeSettle, if_pos due]
      refine congrArg _ ((if_pos landed).trans ?_)
      simp only [State.quietGrant, State.onScanner_scanner, if_true, State.onScanner_rail]
      cases h : s.rail.state with
      | homing phase => cases phase <;> rfl
      | calibrating phase => cases phase <;> rfl
      | _ => rfl

end Sys2Proof.Machine
end

section
/-! PROOFS. The completion of rest learning (R20, R21, R187, R188), and GET KEY COUNTERS (R25). -/

namespace Sys2Proof.Machine

/-! ### Rest learning -/

theorem SensorStats.restOr_eq (held : Nat) (st : SensorStats) :
    st.restOr held = if st.greatest - st.least ≤ 40 then st.sum / 256 else held := by
  have settled : st.settled = true ↔ st.greatest - st.least ≤ 40 := decide_eq_true_iff
  simp only [SensorStats.restOr, settled, Config.learnScans]

theorem SensorStats.not_settled_eq (st : SensorStats) : (!st.settled) = decide (40 < st.greatest - st.least) := by
  rw [Bool.eq_iff_iff, Bool.not_eq_true', decide_eq_true_iff, ← not_le]
  exact decide_eq_false_iff_not

/-- A running operation's end: the slot holds the result and OP_DONE is pending (R187). -/
theorem State.endOperation_running (op : Operation) (outcome : OpOutcome) (details : Details) (s : State)
    (slot : s.link.slot = .running op) : s.endOperation outcome details = { s with link := { s.link with
      slot := .finished op outcome details, pendingSet := s.link.pendingSet ||| Notice.opDone.bit } } := by
  simp only [State.endOperation, slot]
  rfl

/-- Settles O26: the completion writes the settled rests, makes the Scanner READY and ends the operation. -/
theorem restLearningCompletes : Obligations.RestLearningCompletes := by
  intro s l on learning rest unsettled
  rw [show exec .learnRestComplete s = .next s.takeLearning from unlessReset_on State.takeLearning s on]
  simp only [State.takeLearning, learning]
  refine ⟨fun few => ?_, fun op details all slot result => ?_⟩
  · rw [if_neg (show ¬ l.scans = Config.learnScans from few)]
  · rw [if_pos (show l.scans = Config.learnScans from all)]
    have sensors : l.details = ⟨unsettled.length, unsettled.take 8⟩ := by
      simp only [RestLearning.details, SensorStats.not_settled_eq]
      rfl
    have completes : s.completeLearning l = (s.learned l).endOperation .complete details := by
      rcases result with ⟨rfl, rfl⟩ | ⟨rfl, rfl⟩
      · rw [s.completeLearning_startup l slot, sensors]
      · rw [s.completeLearning_alone l (by rw [slot]; exact nofun), sensors]
    refine ⟨(s.learned l).touch.table, ?_, fun k => ?_⟩
    · rw [completes, State.endOperation_running op _ _ _ (show (s.learned l).link.slot = _ from slot)]
      simp only [State.learned, SensorStats.restOr_eq]
      rfl
    · simp only [State.learned, Fin.getElem_fin, mapTableIx_getElem, SensorStats.restOr_eq, rest]

/-! ### GET KEY COUNTERS -/

/-- A request that arrives when the dispatcher can take it is served at once (R180). -/
theorem State.arrive_taking (r : Request) (s : State) (taking : s.taking) (length : r.lengthOk = true) :
    s.arrive r = State.conclude r.kind (endsInReset r) (serveRequest r s) := by
  obtain ⟨-, idle, empty⟩ := taking
  rw [State.arrive, if_pos ⟨idle, empty⟩, State.takeRequest, if_pos length]

theorem KeyRecord.counterBytes_eq (k : KeyRecord) :
    k.counterBytes = [k.strikes, k.missed, k.orphan, k.rebound, k.gateFault].flatMap u16 := by
  simp only [KeyRecord.counterBytes, List.flatMap_cons, List.flatMap_nil, List.append_nil, List.append_assoc]

/-- Settles O28: a run that passes the check is read and set to 0. -/
theorem keyCountersAreReadAndCleared : Obligations.KeyCountersAreReadAndCleared := by
  intro s first count taking inside
  have served : exec (.getKeyCounters first count) s
      = .next (State.conclude 0x11#8 false (serveGetKeyCounters first count s)) :=
    (unlessReset_on (State.arrive (.getKeyCounters first count)) s taking.1).trans
      (congrArg _ (s.arrive_taking _ taking rfl))
  have run : runOk 1 24 88 first.toNat count.toNat = true
      ↔ first.toNat ≤ 87 ∧ 1 ≤ count.toNat ∧ count.toNat ≤ 24 ∧ first.toNat + count.toNat ≤ 88 := by
    rw [runOk, decide_eq_true_iff]
    omega
  rw [served, serveGetKeyCounters]
  split
  · rename_i ok
    rw [if_pos (run.2 ok)]
    refine ⟨mapTableIx (fun k r => if inRun first.toNat count.toNat k.val then r.clearCounters else r) s.scanner.keys, ?_,
      fun k => ?_⟩
    · have read : (keysOf first.toNat count.toNat).flatMap (fun k => s.scanner.keys[k].counterBytes)
          = (allKeys.filter fun k => inside k).flatMap fun k =>
            [s.scanner.keys[k].strikes, s.scanner.keys[k].missed, s.scanner.keys[k].orphan, s.scanner.keys[k].rebound,
              s.scanner.keys[k].gateFault].flatMap u16 := by
        simp only [keysOf, KeyRecord.counterBytes_eq, inside, Bool.decide_and]
      rw [read]
      rfl
    · simp only [Fin.getElem_fin, mapTableIx_getElem, inRun, ← Bool.decide_and, decide_eq_true_eq, inside]
      rfl
  · rename_i bad
    rw [if_neg (mt run.1 bad)]
    rfl

end Sys2Proof.Machine
end

section
/-! PROOFS. A scan (R2, R3, R8, R9, R15, R20, R21, R23, R28): the keys, their RELEASEs, and the rest learning's collection. -/

namespace Sys2Proof.Machine

/-- With nothing left due by the scan before, a scan takes nothing first. -/
theorem State.takeScanLeftovers_clear (s : State) (clear : s.scanClear) : s.takeScanLeftovers = s := by
  obtain ⟨pedal, opened, closed, learning⟩ := clear
  have notDue {f : ScanFilter} (h : f.count < 3) : f.due = false := decide_eq_false (by simp only [Config.agreeing]; omega)
  have noPedal : s.takeSostenuto = s := by simp only [State.takeSostenuto, notDue pedal, Bool.false_eq_true, if_false]
  have noSwitch (e : RailEnd) : s.takeSwitch e = s := by
    have waits : (s.rail.switch e).due = false := by cases e <;> [exact notDue opened; exact notDue closed]
    simp only [State.takeSwitch, waits, Bool.false_eq_true, if_false]
  have noLearning : s.takeLearning = s := by
    unfold State.takeLearning
    split
    · rename_i l h
      exact if_neg (by have := learning l h; simp only [Config.learnScans]; omega)
    · rfl
  rw [State.takeScanLeftovers, noPedal, noSwitch, noSwitch, noLearning]

theorem State.releaseLevel_eq (samples : ScanSamples) (s : State) (k : Key) : s.releaseLevel samples k
    = if s.scanner.keys[k].ends s.scanner.ready s.touch.table[k] samples.keys[k].toNat
      then some (if s.touch.table[k].enabled then s.scanner.keys[k].scanLevel s.touch.table[k] samples.keys[k].toNat else 0)
      else none := by
  simp only [State.releaseLevel, Fin.getElem_fin, mapTableIx_getElem, KeyRecord.scan_eq]

/-- The keys' part takes the table into effect and replaces every key's record by its scan. -/
theorem State.keysScanned_spec (samples : ScanSamples) (s : State) : ∃ keys : Vector KeyRecord 88,
    s.keysScanned samples = { s with
      touch := { s.touch with inEffect := s.touch.table }, scanner := { s.scanner with keys := keys } }
    ∧ ∀ k : Key, keys[k]
      = (KeyRecord.scan s.scanner.ready s.touch.table[k] samples.keys[k].toNat s.scanner.keys[k]).1 := by
  refine ⟨_, rfl, fun k => ?_⟩
  simp only [Fin.getElem_fin, mapTable_getElem, mapTableIx_getElem]

/-- Settles O23: each key by its own scan, the RELEASEs where strokes end, and one scan collected; the pedals' and the
switches' parts change none of it. -/
theorem scansWorkEveryKey : Obligations.ScansWorkEveryKey := by
  intro s samples on clear travel held enabled level below ends rearms release raw
  have taken : exec (.scan samples) s = .next (((s.scanSensors samples).scanSwitches samples).scanLearning samples) := by
    refine (unlessReset_on (State.scan samples) s on).trans ?_
    rw [State.scan, s.takeScanLeftovers_clear clear]
  obtain ⟨d, r, n, sensed⟩ := s.scanSensors_pedalWork samples
  have released : (allKeys.filterMap fun k =>
      (s.releaseLevel samples k).map fun l => NoteRequest.release k (BitVec.ofNat 8 l)) = (allKeys.filter ends).map release := by
    rw [← List.filterMap_eq_map, List.filterMap_filter]
    refine List.filterMap_congr fun k _ => ?_
    rw [s.releaseLevel_eq samples k]
    have same : s.scanner.keys[k].ends s.scanner.ready s.touch.table[k] samples.keys[k].toNat = ends k := rfl
    rw [same]
    by_cases strokeEnds : ends k = true
    · simp only [if_pos strokeEnds, Option.map_some, release, apply_ite (BitVec.ofNat 8)]
      rfl
    · simp only [if_neg strokeEnds, Option.map_none]
  obtain ⟨keys, scanned, eachKey⟩ := s.keysScanned_spec samples
  rw [sensed, released, scanned] at taken
  refine ⟨_, keys, s.scanner.learning.map (RestLearning.collect samples), taken, rfl, rfl, rfl,
    ⟨rfl, rfl, rfl, rfl, rfl, rfl⟩, fun none' => by rw [none']; rfl, fun l some' => ?_, fun k => ?_⟩
  · rw [some']
    refine ⟨(l.collect samples).sensors, rfl, fun i => ?_⟩
    have sample : (ScanSamples.sensor i samples).toNat = raw i := by
      simp only [ScanSamples.sensor, raw]
      split
      · rfl
      · split <;> rfl
    simp only [RestLearning.collect, Fin.getElem_fin, mapTableIx_getElem, SensorStats.add, sample]
  · rw [eachKey k, KeyRecord.scan_eq]
    rfl

end Sys2Proof.Machine
end

section
/-! PROOFS. A live STRIKE at the player (R168): ignored, wrong, expected, or the last expected, which resumes play. -/

namespace Sys2Proof.Machine

/-- The tempo counter's fresh period from a working copy (R158). -/
theorem State.reloadTempo_copy (s : State) (n : Fin 32) (seg : Segment) (copy : s.player.copy = some (n, seg)) :
    s.reloadTempo = s.onPlayer fun p => { p with
      tempo := some (100000 / max 25 (min 200 (seg.tempo * p.masterTempo / 100))) } := by
  rw [State.reloadTempo, copy]
  rfl

theorem State.matchStrike_ignored (k : Key) (s : State) (other : s.player.state ≠ .waiting) : s.matchStrike k = s :=
  if_neg other

theorem State.matchStrike_wrong (k : Key) (s : State) (waiting : s.player.state = .waiting) (wrong : k ∉ s.player.expected) :
    s.matchStrike k = s.onPlayer fun p => { p with wrong := bump p.wrong } := by
  rw [State.matchStrike, if_pos waiting, if_neg (by simpa using wrong)]

/-- An expected key leaves the set; with the last one the player runs again. -/
theorem State.matchStrike_expected (k : Key) (s : State) (waiting : s.player.state = .waiting) (expected : k ∈ s.player.expected) :
    s.matchStrike k = (let t := s.onPlayer fun p => { p with expected := removeKey k p.expected }
      if (removeKey k s.player.expected).isEmpty then
        (t.onPlayer fun p => { p with state := .running }).reloadTempo.firingRun runFuel false
      else t) := by
  rw [State.matchStrike, if_pos waiting, if_pos (by simpa using expected)]
  rfl

/-- The last expected key resumes play, with a fresh period and a firing run (R158, R168). -/
theorem State.matchStrike_last (k : Key) (s : State) (n : Fin 32) (seg : Segment) (waiting : s.player.state = .waiting)
    (expected : k ∈ s.player.expected) (last : ∀ i ∈ s.player.expected, i = k) (copy : s.player.copy = some (n, seg)) :
    s.matchStrike k = State.firingRun runFuel false (s.onPlayer fun p => { p with
      state := .running, expected := []
      tempo := some (100000 / max 25 (min 200 (seg.tempo * p.masterTempo / 100))) }) := by
  have empty : removeKey k s.player.expected = [] := by simpa [removeKey] using last
  simp only [s.matchStrike_expected k waiting expected, empty, List.isEmpty_nil, if_true]
  rw [State.reloadTempo_copy (n := n) (seg := seg)]
  · refine congrArg (State.firingRun runFuel false) ?_
    simp only [State.onPlayer, empty]
  · exact copy

/-- A muted STRIKE that a wait has examined fires without sound (R163, R167), and the run goes on with the next record of its
range. -/
theorem State.firingRun_muted (fuel : Nat) (zeroBegun : Bool) (s : State) (j : Key) (through : Nat)
    (running : s.player.state = .running) (due : s.player.countdown = 0) (satisfied : s.player.satisfied = some through)
    (examined : s.player.slot ≤ through) (inside : s.player.slot + 1 < s.player.segment.start + s.player.segment.count)
    (strike : (passageAt s.player.passage s.player.slot).kind = 1)
    (key : (passageAt s.player.passage s.player.slot).key.toNat = j.val) (muted : s.player.sounds j = false) :
    s.firingRun (fuel + 1) zeroBegun = State.firingRun fuel zeroBegun (s.onPlayer fun p => { p with
      slot := p.slot + 1, countdown := (passageAt p.passage (p.slot + 1)).delta.toNat + p.gap, gap := 0 }) := by
  have noWait : s.player.waitKey = none := by
    cases h : s.player.waitKey with
    | none => rfl
    | some k =>
      obtain ⟨-, -, -, -, unexamined⟩ := (s.player.waitKey_eq_some k).1 h
      exact absurd (unexamined through satisfied) (not_lt.2 examined)
  have fires : s.fireRecord (passageAt s.player.passage s.player.slot) = some s := by
    simp only [State.fireRecord, strike, (keyOf_eq_some _ j).2 key, muted, Bool.false_eq_true, if_false]
    rfl
  rw [State.firingRun_fires fuel zeroBegun s running due, noWait, fires]
  exact if_pos inside

/-- Settles O54: one lemma for each of R168's cases; the resumed run fires the muted due record, and has fuel enough. -/
theorem liveStrikesAreMatched : Obligations.LiveStrikesAreMatched := by
  intro s k
  refine ⟨s.matchStrike_ignored k, fun waiting wrong range => ?_, fun waiting expected more => ?_,
    fun n seg waiting expected last copy => ?_, fun level => rfl, fun level => ?_⟩
  · rw [s.matchStrike_wrong k waiting wrong]
    simp only [State.onPlayer, bump_eq_min _ range]
  · obtain ⟨j, member, other⟩ := more
    have left : ¬ (removeKey k s.player.expected).isEmpty = true := by
      rw [List.isEmpty_iff]
      exact List.ne_nil_of_mem (mem_removeKey.2 ⟨member, other⟩)
    rw [s.matchStrike_expected k waiting expected]
    exact if_neg left
  · intro p resumed
    have resumes : s.matchStrike k = State.firingRun runFuel false resumed :=
      s.matchStrike_last k n seg waiting expected last copy
    refine ⟨resumes, ?_⟩
    intro through j countdown satisfied examined inside due after fired strike key muted
    have segment : resumed.player.segment = seg := by
      simp only [Player.segment, resumed, p, copy]
      rfl
    have muted : resumed.player.sounds j = false := by
      rw [Player.sounds, segment]
      exact muted
    have fires : State.firingRun runFuel false resumed = State.firingRun 16389 false fired :=
      State.firingRun_muted 16389 false resumed j through rfl countdown satisfied examined (by rw [segment]; exact inside)
        strike key muted
    rw [resumes, fires]
    refine ⟨fun time => State.firingRun_stops _ _ _ fun h => time h.2, fun ranges => ?_⟩
    have enough : State.runLength false fired ≤ 16389 := by
      simp only [State.runLength, Bool.false_eq_true, if_false]
      omega
    exact (State.firingRun_fuel 16389 false fired ranges enough).symm
  · obtain ⟨r, n, h⟩ := State.offer_frame .live (.release k level) (s.onVoice fun v => { v with
      liveRequests := v.liveRequests ++ [.release k level] })
    show (State.offer _ _ _).player = _
    rw [h]
    rfl

end Sys2Proof.Machine
end

section
/-! PROOFS. The touch level (R30 to R32, R37 to R39) on the curves that R34 accepts. -/

namespace Sys2Proof.Machine

/-! ### The curve (R33, R34) -/

/-- What R34 asks of the nine points of a touch curve. -/
structure AcceptedCurve (curve : Vector TouchPoint 9) : Prop where
  first : curve[0].speed = 0
  last : curve[8].speed = 1023
  speedRises : ∀ i : Fin 8, curve[i.val].speed < curve[i.val + 1].speed
  levelRises : ∀ i : Fin 8, curve[i.val].level ≤ curve[i.val + 1].level
  levels : ∀ i : Fin 9, 1 ≤ curve[i].level ∧ curve[i].level ≤ 127

/-- The nine points as their bytes give them. -/
def curveRead (points : Vector CurvePoint 9) : Vector TouchPoint 9 := mapTable (fun p => ⟨p.speed.toNat, p.level.toNat⟩) points

theorem curveRead_getElem (points : Vector CurvePoint 9) (i : Nat) (h : i < 9) :
    (curveRead points)[i] = ⟨points[i].speed.toNat, points[i].level.toNat⟩ := mapTable_getElem _ _ i h

/-- The check of R34 as the model runs it. -/
theorem acceptedCurve_iff (curve : Vector TouchPoint 9) : AcceptedCurve curve ↔ curve[0].speed = 0 ∧ curve[8].speed = 1023
    ∧ (List.finRange 8).all (fun i : Fin 8 => curve[i.val].speed < curve[i.val + 1].speed
      && curve[i.val].level ≤ curve[i.val + 1].level) = true
    ∧ curve.toList.all (fun p => 1 ≤ p.level && p.level ≤ 127) = true := by
  have eachStep : (List.finRange 8).all (fun i : Fin 8 => curve[i.val].speed < curve[i.val + 1].speed
      && curve[i.val].level ≤ curve[i.val + 1].level) = true
      ↔ ∀ i : Fin 8, curve[i.val].speed < curve[i.val + 1].speed ∧ curve[i.val].level ≤ curve[i.val + 1].level := by
    simp only [List.all_eq_true, List.mem_finRange, true_imp_iff, Bool.and_eq_true, decide_eq_true_eq]
  have eachLevel : curve.toList.all (fun p => 1 ≤ p.level && p.level ≤ 127) = true
      ↔ ∀ i : Fin 9, 1 ≤ curve[i].level ∧ curve[i].level ≤ 127 := by
    simp only [List.all_eq_true, Vector.mem_toList_iff, Vector.mem_iff_getElem, Bool.and_eq_true, decide_eq_true_eq,
      forall_exists_index, Fin.forall_iff, Fin.getElem_fin]
    exact ⟨fun h i bound => h _ i bound rfl, fun h p i bound at' => at' ▸ h i bound⟩
  rw [eachStep, eachLevel]
  exact ⟨fun ⟨first, last, speedRises, levelRises, levels⟩ => ⟨first, last, fun i => ⟨speedRises i, levelRises i⟩, levels⟩,
    fun ⟨first, last, rises, levels⟩ => ⟨first, last, fun i => (rises i).1, fun i => (rises i).2, levels⟩⟩

theorem curveOf_accepted (points : Vector CurvePoint 9) (ok : AcceptedCurve (curveRead points)) :
    curveOf points = some (curveRead points) := if_pos ((acceptedCurve_iff _).1 ok)

theorem curveOf_refused (points : Vector CurvePoint 9) (bad : ¬ AcceptedCurve (curveRead points)) : curveOf points = none :=
  if_neg (mt (acceptedCurve_iff _).2 bad)

theorem acceptedCurve_of_curveOf (points : Vector CurvePoint 9) (curve : Vector TouchPoint 9)
    (some' : curveOf points = some curve) : AcceptedCurve curve := by
  by_cases ok : AcceptedCurve (curveRead points)
  · exact Option.some.inj ((curveOf_accepted points ok).symm.trans some') ▸ ok
  · exact absurd ((curveOf_refused points ok).symm.trans some') nofun

/-! ### The segment of a speed (R37) -/

theorem AcceptedCurve.speed_mono {curve : Vector TouchPoint 9} (ok : AcceptedCurve curve) :
    Monotone fun i : Fin 9 => curve[i].speed :=
  Fin.monotone_iff_le_succ.2 fun i => (ok.speedRises i).le

theorem AcceptedCurve.level_mono {curve : Vector TouchPoint 9} (ok : AcceptedCurve curve) :
    Monotone fun i : Fin 9 => curve[i].level :=
  Fin.monotone_iff_le_succ.2 ok.levelRises

/-- Segment i holds the speed v (R37). -/
def InSegment (curve : Vector TouchPoint 9) (i : Fin 8) (v : Nat) : Prop :=
  curve[i.val].speed ≤ v ∧ v ≤ curve[i.val + 1].speed

/-- The segments cover the speeds 0 to 1023: a speed above every one of them would lie above the last point. -/
theorem AcceptedCurve.exists_segment {curve : Vector TouchPoint 9} (ok : AcceptedCurve curve) (v : Nat) (range : v ≤ 1023) :
    ∃ i, InSegment curve i v := by
  by_contra none'
  have passes (i : Fin 8) (below : curve[i.val].speed ≤ v) : curve[i.val + 1].speed < v :=
    not_le.1 fun above => none' ⟨i, below, above⟩
  have reached : ∀ n (h : n < 9), curve[n].speed ≤ v := by
    intro n
    induction n with
    | zero => exact fun _ => ok.first.le.trans v.zero_le
    | succ n ih => exact fun h => (passes ⟨n, by omega⟩ (ih (by omega))).le
  have past := passes 7 (reached 7 (by omega))
  exact absurd ok.last (lt_of_lt_of_le past range).ne

theorem AcceptedCurve.curveSegment_holds {curve : Vector TouchPoint 9} (ok : AcceptedCurve curve) (v : Nat) (range : v ≤ 1023) :
    InSegment curve (curveSegment curve v) v := by
  obtain ⟨i, below, above⟩ := ok.exists_segment v range
  have isFound : ((List.finRange 8).find? fun i : Fin 8 =>
      curve[i.val].speed ≤ v && v ≤ curve[i.val + 1].speed).isSome = true :=
    List.find?_isSome.2 ⟨i, List.mem_finRange i, by simp [below, above]⟩
  obtain ⟨j, found⟩ := Option.isSome_iff_exists.1 isFound
  obtain rfl : curveSegment curve v = j := by rw [curveSegment, found]; rfl
  simpa [InSegment] using List.find?_some found

/-! ### The curve level (R38) -/

/-- The interpolation of R38 on segment i. -/
def interpolation (curve : Vector TouchPoint 9) (i : Fin 8) (v : Nat) : Nat :=
  curve[i.val].level + (v - curve[i.val].speed) * (curve[i.val + 1].level - curve[i.val].level)
    / (curve[i.val + 1].speed - curve[i.val].speed)

theorem curveLevel_eq (curve : Vector TouchPoint 9) (v : Nat) :
    curveLevel curve v = interpolation curve (curveSegment curve v) v := rfl

theorem interpolation_mono (curve : Vector TouchPoint 9) (i : Fin 8) {v w : Nat} (le : v ≤ w) :
    interpolation curve i v ≤ interpolation curve i w :=
  Nat.add_le_add_left (Nat.div_le_div_right (Nat.mul_le_mul_right _ (Nat.sub_le_sub_right le _))) _

theorem interpolation_ge (curve : Vector TouchPoint 9) (i : Fin 8) (v : Nat) : curve[i.val].level ≤ interpolation curve i v :=
  Nat.le_add_right _ _

theorem AcceptedCurve.interpolation_le {curve : Vector TouchPoint 9} (ok : AcceptedCurve curve) (i : Fin 8) {v : Nat}
    (above : v ≤ curve[i.val + 1].speed) : interpolation curve i v ≤ curve[i.val + 1].level := by
  have rise : (v - curve[i.val].speed) * (curve[i.val + 1].level - curve[i.val].level)
      / (curve[i.val + 1].speed - curve[i.val].speed) ≤ curve[i.val + 1].level - curve[i.val].level :=
    Nat.div_le_of_le_mul (Nat.mul_le_mul_right _ (Nat.sub_le_sub_right above _))
  have levels := ok.levelRises i
  rw [interpolation]
  omega

/-- A faster hammer lies in the same segment, where the interpolation rises, or in a later one, whose first point is not below
the end of the slower one's. -/
theorem AcceptedCurve.curveLevel_mono {curve : Vector TouchPoint 9} (ok : AcceptedCurve curve) {v w : Nat} (le : v ≤ w)
    (range : w ≤ 1023) : curveLevel curve v ≤ curveLevel curve w := by
  obtain rfl | less := le.eq_or_lt
  · rfl
  have vHeld := ok.curveSegment_holds v (le.trans range)
  have wHeld := ok.curveSegment_holds w range
  rw [curveLevel_eq, curveLevel_eq]
  generalize curveSegment curve v = i at *
  generalize curveSegment curve w = j at *
  obtain ⟨vBelow, vAbove⟩ := vHeld
  obtain ⟨-, wAbove⟩ := wHeld
  obtain earlier | rfl | later := lt_trichotomy j i
  · have backward : curve[j.val + 1].speed ≤ curve[i.val].speed := ok.speed_mono (a := j.succ) (b := i.castSucc) earlier
    omega
  · exact interpolation_mono curve j le
  · calc interpolation curve i v ≤ curve[i.val + 1].level := ok.interpolation_le i vAbove
      _ ≤ curve[j.val].level := ok.level_mono (a := i.succ) (b := j.castSucc) later
      _ ≤ interpolation curve j w := interpolation_ge curve j w

/-! ### The speed and the trim (R31, R32, R39) -/

theorem hammerSpeed_le (interval gapScale : Nat) : hammerSpeed interval gapScale ≤ 1023 := min_le_left _ _

theorem hammerSpeed_anti (gapScale : Nat) {faster slower : Nat} (positive : 0 < faster) (le : faster ≤ slower) :
    hammerSpeed slower gapScale ≤ hammerSpeed faster gapScale :=
  min_le_min_left _ (Nat.div_le_div_left (Nat.mul_le_mul_left 256 le) (by omega))

theorem trimmedLevel_eq (level : Nat) (trim : Int) : (trimmedLevel level trim : Int) = max 1 (min 127 (level + trim)) := by
  simp only [trimmedLevel, clampInt]
  omega

theorem trimmedLevel_mono (trim : Int) {low high : Nat} (le : low ≤ high) : trimmedLevel low trim ≤ trimmedLevel high trim := by
  zify
  rw [trimmedLevel_eq, trimmedLevel_eq]
  exact max_le_max_left _ (min_le_min_left _ (by omega))

/-- Settles O30: the interpolation of the segment that holds the speed; the level falls at no step from the interval to the
speed, the curve level and the trimmed level. -/
theorem touchLevelsFollowTheCurve : Obligations.TouchLevelsFollowTheCurve := by
  intro points curve entry accepted
  have ok := acceptedCurve_of_curveOf points curve accepted
  refine ⟨?_, rfl, fun faster slower le => ?_⟩
  · intro interval positive v
    obtain ⟨below, above⟩ := ok.curveSegment_holds v (min_le_left _ _)
    refine ⟨curveSegment curve v, below, above, ?_⟩
    rw [touchLevel, max_eq_right positive]
    exact trimmedLevel_eq _ _
  · have speeds := hammerSpeed_anti entry.gapScale (faster := max 1 faster) (by omega) (max_le_max_left 1 le)
    exact trimmedLevel_mono entry.trim (ok.curveLevel_mono speeds (hammerSpeed_le _ _))

end Sys2Proof.Machine
end

section
/-! PROOFS. SET REGULATION (R26, R27) and SET TOUCH CURVE (R34): the check in full, and the write. -/

namespace Sys2Proof.Machine

/-- A request that arrives at a part not held in reset, with the dispatcher free, is served at once (R180, R193). -/
theorem unlessReset_arrive_taking (r : Request) (s : State) (taking : s.taking) (length : r.lengthOk = true) :
    unlessReset (State.arrive r) s = .next (State.conclude r.kind (endsInReset r) (serveRequest r s)) :=
  (unlessReset_on (State.arrive r) s taking.1).trans (congrArg _ (s.arrive_taking r taking length))

/-! ### Every entry, or none -/

theorem allOf_map_some {α β : Type} (f : α → Option β) (g : α → β) (l : List α) (each : ∀ a ∈ l, f a = some (g a)) :
    allOf (l.map f) = some (l.map g) := by
  induction l with
  | nil => rfl
  | cons a rest ih =>
    obtain ⟨this, others⟩ := List.forall_mem_cons.1 each
    rw [List.map_cons, this, allOf, ih others]
    rfl

theorem allOf_map_none {α β : Type} (f : α → Option β) (l : List α) (a : α) (mem : a ∈ l) (fails : f a = none) :
    allOf (l.map f) = none := by
  induction mem with
  | head rest => rw [List.map_cons, fails, allOf]
  | tail b _ ih =>
    rw [List.map_cons]
    cases f b with
    | none => rfl
    | some _ => rw [allOf, ih, Option.map_none]

/-! ### The regulation table -/

/-- The ranges of R26, with the thresholds in order (R27). -/
def RegInRange (f : RegFields) : Prop :=
  f.rest.toNat ≤ 1023 ∧ f.touchPoint.toNat ≤ 1023 ∧ f.rearmPoint.toNat ≤ 1023 ∧ 1 ≤ f.releasePoint.toNat
    ∧ 128 ≤ f.gapScale.toNat ∧ f.gapScale.toNat ≤ 511 ∧ -16 ≤ f.trim.toInt ∧ f.trim.toInt ≤ 15 ∧ f.enabled.toNat ≤ 1
    ∧ f.releasePoint.toNat < f.touchPoint.toNat ∧ f.touchPoint.toNat < f.rearmPoint.toNat

/-- The entry as its fields give it. -/
def regEntryRead (f : RegFields) : RegEntry :=
  ⟨f.rest.toNat, f.touchPoint.toNat, f.rearmPoint.toNat, f.releasePoint.toNat, f.gapScale.toNat, f.trim.toInt, f.enabled = 1⟩

theorem onOffOf_eq (code : Byte) : onOffOf code = if code.toNat ≤ 1 then some (decide (code = 1)) else none := by
  simp only [onOffOf, BitVec.toNat_eq]
  split
  · next off => simp [off]
  · next on => simp [on]
  · next notOff notOn =>
    have above : ¬ code.toNat ≤ 1 := fun h => (Nat.le_one_iff_eq_zero_or_eq_one.1 h).elim notOff notOn
    exact (if_neg above).symm

theorem regEntryOf_inRange (f : RegFields) (ok : RegInRange f) : regEntryOf f = some (regEntryRead f) := by
  obtain ⟨rest, touch, rearm, release, gapLow, gapHigh, trimLow, trimHigh, enabled, touchOrder, rearmOrder⟩ := ok
  rw [regEntryOf, onOffOf_eq, if_pos enabled]
  exact if_pos (by omega)

theorem regEntryOf_outOfRange (f : RegFields) (bad : ¬ RegInRange f) : regEntryOf f = none := by
  rw [regEntryOf, onOffOf_eq]
  by_cases enabled : f.enabled.toNat ≤ 1
  · rw [if_pos enabled]
    refine if_neg fun ok => bad ?_
    rw [RegInRange]
    omega
  · rw [if_neg enabled]

/-- An entry of the run is replaced by the one the request carries for it; every other stays (R27). -/
theorem writeRun_getElem (first : Nat) (entries : List RegEntry) (table : Vector RegEntry 88) (k : Key) :
    (writeRun first entries table)[k] = if first ≤ k.val then (entries[k.val - first]?).getD table[k] else table[k] := by
  simp only [writeRun, Fin.getElem_fin, mapTableIx_getElem, inRun, ← Bool.decide_and, decide_eq_true_eq,
    List.getD_eq_getElem?_getD]
  by_cases from' : first ≤ k.val
  · rw [if_pos from']
    by_cases inside : k.val < first + entries.length
    · rw [if_pos ⟨from', inside⟩]
    · rw [if_neg fun h => inside h.2, List.getElem?_eq_none (by omega), Option.getD_none]
  · rw [if_neg from', if_neg fun h => from' h.1]

theorem setRegulation_served (first count : Byte) (entries : List RegFields) (s : State) (taking : s.taking)
    (length : entries.length = count.toNat) : exec (.setRegulation first count entries) s
      = .next (State.conclude 0x12#8 false (serveSetRegulation first count entries s)) :=
  unlessReset_arrive_taking (.setRegulation first count entries) s taking (decide_eq_true length)

theorem serveSetRegulation_written (first count : Byte) (entries : List RegFields) (s : State)
    (run : runOk 1 16 88 first.toNat count.toNat = true) (ok : ∀ f ∈ entries, RegInRange f) :
    serveSetRegulation first count entries s
      = .ok (s.onTouch fun t => { t with table := writeRun first.toNat (entries.map regEntryRead) t.table }) := by
  rw [serveSetRegulation, if_pos run, allOf_map_some regEntryOf regEntryRead entries fun f h => regEntryOf_inRange f (ok f h)]

theorem serveSetRegulation_refused (first count : Byte) (entries : List RegFields) (s : State)
    (bad : runOk 1 16 88 first.toNat count.toNat = true → ∃ f ∈ entries, ¬ RegInRange f) :
    serveSetRegulation first count entries s = .refuse .badValue s := by
  rw [serveSetRegulation]
  split
  · next run =>
    obtain ⟨f, mem, outOfRange⟩ := bad run
    rw [allOf_map_none regEntryOf entries f mem (regEntryOf_outOfRange f outOfRange)]
  · rfl

/-! ### The touch curve -/

theorem setTouchCurve_served (points : Vector CurvePoint 9) (s : State) (taking : s.taking) : exec (.setTouchCurve points) s
    = .next (State.conclude 0x14#8 false (serveSetTouchCurve points s)) :=
  unlessReset_arrive_taking (.setTouchCurve points) s taking rfl

/-- R34's check, read from the points as they arrive. -/
theorem acceptedCurve_read_iff (points : Vector CurvePoint 9) : AcceptedCurve (curveRead points)
    ↔ points[0].speed = 0 ∧ points[8].speed.toNat = 1023
      ∧ (∀ i : Fin 8, points[i.val].speed.toNat < points[i.val + 1].speed.toNat
        ∧ points[i.val].level.toNat ≤ points[i.val + 1].level.toNat)
      ∧ ∀ i : Fin 9, 1 ≤ points[i].level.toNat ∧ points[i].level.toNat ≤ 127 := by
  have zero : points[0].speed = 0 ↔ points[0].speed.toNat = 0 := BitVec.toNat_eq
  rw [zero]
  constructor
  · rintro ⟨first, last, speedRises, levelRises, levels⟩
    simp only [Fin.getElem_fin, curveRead_getElem] at first last speedRises levelRises levels
    exact ⟨first, last, fun i => ⟨speedRises i, levelRises i⟩, levels⟩
  · rintro ⟨first, last, rises, levels⟩
    constructor <;> simp only [Fin.getElem_fin, curveRead_getElem]
    exacts [first, last, fun i => (rises i).1, fun i => (rises i).2, levels]

/-- Settles O29: either request is answered once its whole check is decided, with the whole write or none of it. -/
theorem regulationAndCurveAreCheckedInFull : Obligations.RegulationAndCurveAreCheckedInFull := by
  intro s taking
  refine ⟨?_, fun points => ?_⟩
  · intro first count entries length good
    have run : runOk 1 16 88 first.toNat count.toNat = true
        ↔ first.toNat ≤ 87 ∧ 1 ≤ count.toNat ∧ count.toNat ≤ 16 ∧ first.toNat + count.toNat ≤ 88 := by
      rw [runOk, decide_eq_true_iff]
      omega
    rw [setRegulation_served first count entries s taking length]
    split
    · next accepted =>
      obtain ⟨start, least, most, fits, ok⟩ := accepted
      rw [serveSetRegulation_written first count entries s (run.2 ⟨start, least, most, fits⟩) ok]
      refine ⟨_, rfl, fun k => ?_⟩
      rw [writeRun_getElem, List.getElem?_map]
      cases entries[k.val - first.toNat]? <;> rfl
    · next refused =>
      rw [serveSetRegulation_refused first count entries s fun isRun => ?_]
      · rfl
      · obtain ⟨start, least, most, fits⟩ := run.1 isRun
        by_contra allGood
        push Not at allGood
        exact refused ⟨start, least, most, fits, allGood⟩
  · rw [setTouchCurve_served points s taking, serveSetTouchCurve]
    split
    · next accepted =>
      rw [curveOf_accepted points ((acceptedCurve_read_iff points).2 accepted)]
      exact ⟨curveRead points, rfl, fun i => curveRead_getElem points i i.isLt⟩
    · next refused =>
      rw [curveOf_refused points (mt (acceptedCurve_read_iff points).1 refused)]
      rfl

end Sys2Proof.Machine
end

section
/-! PROOFS. The pedals' part of a scan (R43 to R52): the unit after it, its offers, and both orders of a scan's parts (R51). -/

namespace Sys2Proof.Machine

/-! ### The damper lift (R44) -/

theorem liftOf_below {map : PedalMap} {travel : Nat} (below : travel ≤ map.contact) : liftOf map travel = 0 := if_pos below

theorem liftOf_above {map : PedalMap} {travel : Nat} (ordered : map.contact < map.full) (above : map.full ≤ travel) :
    liftOf map travel = 255 := by
  rw [liftOf, if_neg (by omega), if_pos above]

theorem liftOf_between {map : PedalMap} {travel : Nat} (past : map.contact < travel) (under : travel < map.full) :
    liftOf map travel = (travel - map.contact) * 255 / (map.full - map.contact) := by
  rw [liftOf, if_neg (by omega), if_neg (by omega)]

theorem liftOf_between_le {map : PedalMap} {travel : Nat} (past : map.contact < travel) (under : travel < map.full) :
    liftOf map travel ≤ 254 := by
  rw [liftOf_between past under, ← Nat.lt_succ_iff, Nat.div_lt_iff_lt_mul (by omega)]
  show _ < 255 * _
  omega

/-- The three pieces of the lift meet in order. -/
theorem liftOf_mono {map : PedalMap} (ordered : map.contact < map.full) : Monotone (liftOf map) := by
  intro travel further le
  by_cases below : travel ≤ map.contact
  · rw [liftOf_below below]
    exact Nat.zero_le _
  · by_cases above : map.full ≤ further
    · rw [liftOf_above ordered above]
      by_cases full : map.full ≤ travel
      · exact (liftOf_above ordered full).le
      · exact (liftOf_between_le (by omega) (by omega)).trans (by decide)
    · rw [liftOf_between (by omega) (by omega), liftOf_between (by omega) (by omega)]
      exact Nat.div_le_div_right (Nat.mul_le_mul_right 255 (Nat.sub_le_sub_right le _))

/-! ### The filters of a scan (R46, R57) -/

/-- A scan's step of a filter whose change is not due. -/
theorem ScanFilter.step_eq (opposite : Bool) (f : ScanFilter) (notDue : f.count < 3) :
    f.step opposite = ⟨f.on, if opposite then f.count + 1 else 0⟩ := by
  have room : min 3 (f.count + 1) = f.count + 1 := by omega
  simp only [ScanFilter.step, Config.agreeing, room]

theorem sostenutoMeets_iff (on : Bool) (raw : Nat) :
    sostenutoMeets on raw = true ↔ if on then raw ≤ 460 else 560 ≤ raw := by
  cases on <;> exact decide_eq_true_iff

/-! ### The pedals' part (R43, R49, R50, R52) -/

/-- The Pedal Unit measured at a scan while READY: the live values of the sensors, merged, with the keys then held. -/
def PedalUnit.scanned (samples : ScanSamples) (held : List Key) (p : PedalUnit) : PedalUnit :=
  PedalUnit.merge held { p.measure samples with live := (p.measure samples).liveValues, following := true }

/-- The una corda value is offered at this scan: it has moved, and no confirmation is due before it (R52). -/
def PedalUnit.valueOffered (p : PedalUnit) : Bool := !p.filter.due && p.valueMoves

/-- The records a scan offers, damper before sostenuto before una corda (R52). -/
def PedalUnit.scanEvents (p : PedalUnit) : List RecorderEvent :=
  p.damperEvents ++ p.sostenutoEvents
    ++ (if p.valueOffered then [.pedal .unaCorda (BitVec.ofNat 8 p.live.unaCorda)] else [])

/-- The references moved to the values offered (R52). -/
def PedalUnit.referred (p : PedalUnit) : PedalUnit :=
  { p with
    refLift := if p.liftMoves then p.live.lift else p.refLift
    refSostenuto := p.live.sostenuto
    refUnaCorda := if p.valueOffered then p.live.unaCorda else p.refUnaCorda }

/-- Two offers of the pedals in a row: the second one's events follow the first one's. -/
theorem State.offerSostenuto_afterOffers (events : List RecorderEvent) (s : State) :
    (events.foldl (fun u e => u.offer .live e) s).offerSostenuto
      = (events ++ s.pedals.sostenutoEvents).foldl (fun u e => u.offer .live e)
          (s.onPedals fun p => { p with refSostenuto := s.pedals.live.sostenuto }) := by
  rw [State.offerSostenuto_eq, State.offers_pedals, State.offers_onPedals, List.foldl_append]

theorem State.offerUnaCorda_afterOffers (events : List RecorderEvent) (s : State) :
    (events.foldl (fun u e => u.offer .live e) s).offerUnaCorda
      = (events ++ s.pedals.unaCordaEvents).foldl (fun u e => u.offer .live e)
          (s.onPedals fun p => { p with
            refUnaCorda := if s.pedals.valueMoves then s.pedals.live.unaCorda else s.pedals.refUnaCorda }) := by
  rw [State.offerUnaCorda_eq, State.offers_pedals, State.offers_onPedals, List.foldl_append]

theorem State.scanPedals_notReady (samples : ScanSamples) (s : State) (notReady : s.scanner.ready = false) :
    s.scanPedals samples = s.onPedals (PedalUnit.measure samples) := by
  simp only [State.scanPedals, State.onPedals_scanner, notReady, Bool.false_eq_true, if_false]

/-- The offers of a scan, as one run with the references moved. -/
theorem State.offerPedals_eq (s : State) :
    (if s.pedals.filter.due then s.offerDamper.offerSostenuto else s.offerDamper.offerSostenuto.offerUnaCorda)
      = s.pedals.scanEvents.foldl (fun u e => u.offer .live e) (s.onPedals fun _ => s.pedals.referred) := by
  rw [State.offerDamper_eq, State.offerSostenuto_afterOffers, State.offerUnaCorda_afterOffers]
  unfold PedalUnit.scanEvents PedalUnit.referred PedalUnit.valueOffered
  cases s.pedals.filter.due
  · rfl
  · simp only [if_true, Bool.not_true, Bool.false_and, Bool.false_eq_true, if_false, List.append_nil]
    rfl

theorem State.scanPedals_ready (samples : ScanSamples) (s : State) (ready : s.scanner.ready = true) :
    s.scanPedals samples = (s.pedals.scanned samples s.heldKeys).scanEvents.foldl (fun u e => u.offer .live e)
      (s.onPedals fun _ => (s.pedals.scanned samples s.heldKeys).referred) := by
  have live := State.offerPedals_eq (s.onPedals (PedalUnit.scanned samples s.heldKeys))
  simp only [State.scanPedals, State.onPedals_scanner, ready, if_true]
  refine Eq.trans ?_ live
  have kept (t : State) : t.offerDamper.offerSostenuto.pedals.filter = t.pedals.filter := by
    rw [State.offerDamper_eq, State.offerSostenuto_afterOffers, State.offers_pedals]
    rfl
  rw [kept]
  rfl

/-! ### A scan of both parts, in either order (R51) -/

/-- A run of offers in a state that agrees with another on the recorder, the clock and the link leaves what it leaves there. -/
theorem State.offers_of_agrees (events : List RecorderEvent) {s x : State} (recorder : x.recorder = s.recorder)
    (clock : x.perfClock = s.perfClock) (link : x.link = s.link) :
    events.foldl (fun u e => u.offer .live e) x = { x with
      recorder := (events.foldl (fun u e => u.offer .live e) s).recorder
      link := (events.foldl (fun u e => u.offer .live e) s).link } := by
  obtain ⟨r, n, h⟩ := s.offers_spec .live events
  rw [h x recorder clock link, h s rfl rfl rfl]

/-- The keys that a scan releases, with their levels, in ascending order (R9, R15). -/
def State.released (samples : ScanSamples) (s : State) : List (Key × Byte) :=
  allKeys.filterMap fun k => (s.releaseLevel samples k).map fun l => (k, BitVec.ofNat 8 l)

/-- The keys' part of a scan but for its offers, with the key records and the releases that it makes. -/
def State.keysWorked (keys : Vector KeyRecord 88) (released : List (Key × Byte)) (s : State) : State :=
  { s with
    touch := { s.touch with inEffect := s.touch.table }
    scanner := { s.scanner with keys := keys }
    voice := { s.voice with
      liveRequests := s.voice.liveRequests ++ released.map fun e => NoteRequest.release e.1 e.2 } }

/-- The RELEASEs of a scan depend on the keys and their entries alone. -/
theorem State.released_of_eq (samples : ScanSamples) {s t : State} (scanner : t.scanner = s.scanner)
    (touch : t.touch = s.touch) : t.released samples = s.released samples := by
  simp only [State.released, State.releaseLevel_eq, scanner, touch]

theorem State.keysScanned_eq (samples : ScanSamples) {s t : State} (scanner : t.scanner = s.scanner)
    (touch : t.touch = s.touch) : t.keysScanned samples = { t with
      touch := { t.touch with inEffect := t.touch.table }
      scanner := { t.scanner with keys := (s.keysScanned samples).scanner.keys } } := by
  simp only [State.keysScanned, State.onScanner, State.onTouch, scanner, touch]

/-- The keys' part of a scan, in every state with these keys and entries: its work, and its RELEASEs as offers. -/
theorem State.scanKeys_released (samples : ScanSamples) (s : State) : ∃ keys, ∀ t : State, t.scanner = s.scanner →
    t.touch = s.touch → t.scanKeys samples
      = ((s.released samples).map fun e => RecorderEvent.release e.1 e.2).foldl (fun u e => u.offer .live e)
        (t.keysWorked keys (s.released samples)) := by
  refine ⟨(s.keysScanned samples).scanner.keys, fun t scanner touch => ?_⟩
  have events : (allKeys.filterMap fun k => (t.releaseLevel samples k).map fun l =>
      RecorderEvent.release k (BitVec.ofNat 8 l)) = (t.released samples).map fun e => RecorderEvent.release e.1 e.2 := by
    simp only [State.released, List.map_filterMap, Option.map_map, Function.comp_def]
  have requests : (allKeys.filterMap fun k => (t.releaseLevel samples k).map fun l =>
      NoteRequest.release k (BitVec.ofNat 8 l)) = (t.released samples).map fun e => NoteRequest.release e.1 e.2 := by
    simp only [State.released, List.map_filterMap, Option.map_map, Function.comp_def]
  rw [State.scanKeys_eq, events, requests, State.released_of_eq samples scanner touch,
    State.keysScanned_eq samples scanner touch]
  rfl

/-- The keys' and the pedals' parts of a scan: the pedals' part changes no key, the keys' part no pedal, and the offers of the
two make one run. -/
theorem State.scanSensors_eq (samples : ScanSamples) (s : State) : ∃ keys : Vector KeyRecord 88, ∀ pedals events,
    (∀ t : State, t.pedals = s.pedals → t.scanner.ready = s.scanner.ready → t.player = s.player →
      t.scanner.keys = (if samples.pedalsFirst then s.scanner.keys else keys) →
      t.scanPedals samples = events.foldl (fun u e => u.offer .live e) (t.onPedals fun _ => pedals)) →
    let releases := (s.released samples).map fun e => RecorderEvent.release e.1 e.2
    let u : State :=
      (if samples.pedalsFirst then events ++ releases else releases ++ events).foldl (fun u e => u.offer .live e) s
    s.scanSensors samples
      = { s.keysWorked keys (s.released samples) with pedals := pedals, recorder := u.recorder, link := u.link } := by
  obtain ⟨keys, worked⟩ := s.scanKeys_released samples
  refine ⟨keys, ?_⟩
  intro pedals events alone releases u
  refine Eq.trans ?_ (State.offers_of_agrees (if samples.pedalsFirst then events ++ releases else releases ++ events)
    (s := s) (x := (s.keysWorked keys (s.released samples)).onPedals fun _ => pedals) rfl rfl rfl)
  unfold State.scanSensors
  cases first : samples.pedalsFirst with
  | true =>
    simp only [if_true, first] at alone ⊢
    obtain ⟨r, n, h⟩ := s.offers_spec .live events
    rw [alone s rfl rfl rfl rfl, List.foldl_append, h (s.onPedals _) rfl rfl rfl,
      h ((s.keysWorked keys (s.released samples)).onPedals _) rfl rfl rfl]
    exact worked _ rfl rfl
  | false =>
    simp only [Bool.false_eq_true, if_false, first] at alone ⊢
    rw [worked s rfl rfl, List.foldl_append, ← State.offers_onPedals]
    obtain ⟨r, n, h⟩ := (s.keysWorked keys (s.released samples)).offers_spec .live releases
    rw [h _ rfl rfl rfl]
    exact alone _ rfl rfl rfl rfl

/-- A scan with nothing left due by the one before it. -/
theorem State.exec_scan_clear (samples : ScanSamples) (s : State) (on : s.inReset = false) (clear : s.scanClear) :
    exec (.scan samples) s = .next (((s.scanSensors samples).scanSwitches samples).scanLearning samples) := by
  refine (unlessReset_on (State.scan samples) s on).trans ?_
  rw [State.scan, s.takeScanLeftovers_clear clear]

/-! ### The obligations -/

theorem State.heldKeys_eq (s : State) :
    s.heldKeys = allKeys.filter fun k => decide (s.scanner.keys[k].phase ≠ .idle ∨ k ∈ s.player.held) := by
  refine List.filter_congr fun k _ => ?_
  rw [Bool.eq_iff_iff]
  simp

/-- The merge, with the latch set by the merged sostenuto's state before it (R49, R50). -/
theorem PedalUnit.merge_eq (held : List Key) (p : PedalUnit) :
    let on := p.live.sostenuto || p.playback.sostenuto
    p.merge held = { p with
      mergedLift := max p.live.lift p.playback.lift, mergedSostenuto := on
      latch := if on then (if p.mergedSostenuto then p.latch else held) else [] } := by
  simp only [PedalUnit.merge]
  cases p.live.sostenuto || p.playback.sostenuto <;> cases p.mergedSostenuto <;> rfl

/-- The keys held when a scan takes its pedals' part (R50, R51). -/
def State.heldAtScan (samples : ScanSamples) (keys : Vector KeyRecord 88) (s : State) : List Key :=
  allKeys.filter fun k => decide
    ((if samples.pedalsFirst then s.scanner.keys else keys)[k].phase ≠ .idle ∨ k ∈ s.player.held)

/-- The sensors' part of a scan while READY (R43 to R52). -/
theorem State.scanSensors_ready (samples : ScanSamples) (s : State) (ready : s.scanner.ready = true) :
    ∃ keys : Vector KeyRecord 88,
    let p := s.pedals.scanned samples (s.heldAtScan samples keys)
    let releases := (s.released samples).map fun e => RecorderEvent.release e.1 e.2
    let u : State :=
      (if samples.pedalsFirst then p.scanEvents ++ releases else releases ++ p.scanEvents).foldl (fun u e => u.offer .live e) s
    s.scanSensors samples
      = { s.keysWorked keys (s.released samples) with pedals := p.referred, recorder := u.recorder, link := u.link } := by
  obtain ⟨keys, sensed⟩ := s.scanSensors_eq samples
  refine ⟨keys, sensed _ _ fun t pedals ready' player keys' => ?_⟩
  have held : t.heldKeys = s.heldAtScan samples keys := by rw [t.heldKeys_eq, State.heldAtScan, keys', player]
  rw [t.scanPedals_ready samples (ready'.trans ready), pedals, held]

/-- No stroke ends at a scan while NOT_READY (R20). -/
theorem State.released_notReady (samples : ScanSamples) (s : State) (notReady : s.scanner.ready = false) :
    s.released samples = [] := by
  simp [State.released, State.releaseLevel_eq, notReady, KeyRecord.ends]

/-- The sensors' part of a scan while NOT_READY (R43). -/
theorem State.scanSensors_notReady (samples : ScanSamples) (s : State) (notReady : s.scanner.ready = false) :
    ∃ keys : Vector KeyRecord 88,
    s.scanSensors samples = { s.keysWorked keys [] with pedals := s.pedals.measure samples } := by
  obtain ⟨keys, sensed⟩ := s.scanSensors_eq samples
  refine ⟨keys, (sensed (s.pedals.measure samples) [] fun t pedals ready' _ _ => ?_).trans ?_⟩
  · rw [t.scanPedals_notReady samples (ready'.trans notReady), ← pedals]
    rfl
  · simp only [s.released_notReady samples notReady, List.map_nil, List.append_nil, List.foldl_nil, ite_self]
    rfl

/-- The switches' part of a scan with no change due (R57). -/
theorem Rail.switches_scanned (samples : ScanSamples) (r : Rail) (opened : r.switchOpen.count < 3)
    (closed : r.switchClosed.count < 3) :
    { r with
      switchOpen := r.switchOpen.step (samples.endOpen != r.switchOpen.on)
      switchClosed := r.switchClosed.step (samples.endClosed != r.switchClosed.on) }
    = { r with
      switchOpen := ⟨r.switchOpen.on, if samples.endOpen = r.switchOpen.on then 0 else r.switchOpen.count + 1⟩
      switchClosed :=
        ⟨r.switchClosed.on, if samples.endClosed = r.switchClosed.on then 0 else r.switchClosed.count + 1⟩ } := by
  rw [ScanFilter.step_eq _ _ opened, ScanFilter.step_eq _ _ closed]
  simp only [bne_iff_ne, ne_eq, ite_not]

/-- The sostenuto's filter after a scan with no confirmation due before it (R46). -/
theorem PedalUnit.measure_filter (samples : ScanSamples) (p : PedalUnit) (notDue : p.filter.count < 3) :
    (p.measure samples).filter = ⟨p.filter.on,
      if (if p.filter.on then samples.sostenuto.toNat ≤ 460 else 560 ≤ samples.sostenuto.toNat)
        then p.filter.count + 1 else 0⟩ := by
  have meets := sostenutoMeets_iff p.filter.on samples.sostenuto.toNat
  refine (ScanFilter.step_eq _ _ notDue).trans ?_
  simp only [meets]

/-- Settles O24: while NOT_READY the pedals are measured alone; while READY the live values, the merge and the references
follow, and what is offered is one run with the RELEASEs. -/
theorem scansWorkThePedals : Obligations.ScansWorkThePedals := by
  intro s samples on clear
  have ⟨notDue, opened, closed, _⟩ := clear
  have filter := s.pedals.measure_filter samples notDue
  have rail := Rail.switches_scanned samples s.rail opened closed
  cases ready : s.scanner.ready with
  | false =>
    obtain ⟨keys, sensed⟩ := s.scanSensors_notReady samples ready
    refine ⟨_, [], s.exec_scan_clear samples on clear, ?_⟩
    rw [sensed]
    intro p raw lift on value due liftMoves valueMoves offers releases merged keys
    exact ⟨rfl, ⟨rfl, rfl, rfl, rfl, rfl, filter⟩,
      fun _ => ⟨rfl, rfl, rfl, rfl, rfl, rfl, rfl, rfl, rfl, rfl, rfl⟩, nofun, rail⟩
  | true =>
    obtain ⟨keys, sensed⟩ := s.scanSensors_ready samples ready
    refine ⟨_, s.released samples, s.exec_scan_clear samples on clear, ?_⟩
    rw [sensed]
    intro p raw lift on value due liftMoves valueMoves offers releases merged keys
    refine ⟨rfl, ⟨rfl, rfl, rfl, rfl, rfl, filter⟩, nofun, fun _ => ?_, rail⟩
    refine ⟨rfl, rfl, rfl, rfl, rfl, rfl, ?_, rfl, rfl, rfl, _, rfl, rfl, rfl⟩
    exact congrArg PedalUnit.latch (PedalUnit.merge_eq _ _)

/-- Settles O25: the lift is read off the map's three pieces, and a scan takes the rest and the map written into effect. -/
theorem damperLiftFollowsTheMap : Obligations.DamperLiftFollowsTheMap := by
  refine ⟨fun map travel ordered => ?_, fun s samples on clear ready => ?_⟩
  · exact ⟨liftOf_below, liftOf_above ordered,
      fun past under => ⟨liftOf_between past under, liftOf_between_le past under⟩, fun further le => liftOf_mono ordered le⟩
  · obtain ⟨keys, sensed⟩ := s.scanSensors_ready samples ready
    refine ⟨_, s.exec_scan_clear samples on clear, ?_⟩
    rw [sensed]
    rfl

end Sys2Proof.Machine
end

section
/-! PROOFS. The sostenuto's confirmation (R43, R46, R49, R50, R52): the turn, and the offers left to it. -/

namespace Sys2Proof.Machine

/-- The Pedal Unit with its filtered state turned (R46). -/
def PedalUnit.confirmed (p : PedalUnit) : PedalUnit := { p with filter := p.filter.confirm }

/-- The Pedal Unit whose live sostenuto has followed the turn, merged with the keys then held (R46, R49, R50). -/
def PedalUnit.turned (held : List Key) (p : PedalUnit) : PedalUnit :=
  PedalUnit.merge held { p.confirmed with live := { p.live with sostenuto := !p.filter.on } }

/-- The records a confirmation offers after its scan: the sostenuto's, then the una corda's (R52). -/
def PedalUnit.turnEvents (p : PedalUnit) : List RecorderEvent := p.sostenutoEvents ++ p.unaCordaEvents

/-- The references moved to the values that a confirmation offers (R52). -/
def PedalUnit.turnReferred (p : PedalUnit) : PedalUnit :=
  { p with refSostenuto := p.live.sostenuto, refUnaCorda := if p.valueMoves then p.live.unaCorda else p.refUnaCorda }

theorem State.liveFollows_iff (s : State) :
    s.liveFollows = true ↔ s.scanner.ready = true ∧ s.pedals.following = true := Bool.and_eq_true_iff

theorem State.sostenutoTurns_alone (s : State) (alone : s.liveFollows = false) :
    s.sostenutoTurns = s.onPedals PedalUnit.confirmed :=
  if_neg (Bool.eq_false_iff.1 alone)

theorem State.sostenutoTurns_followed (s : State) (follows : s.liveFollows = true) :
    s.sostenutoTurns = s.onPedals (PedalUnit.turned s.heldKeys) :=
  if_pos follows

theorem State.takeSostenuto_alone (s : State) (due : s.pedals.filter.due = true) (alone : s.liveFollows = false) :
    s.takeSostenuto = s.onPedals PedalUnit.confirmed := by
  have still : (s.onPedals PedalUnit.confirmed).liveFollows = false := alone
  simp only [State.takeSostenuto, due, s.sostenutoTurns_alone alone, still, if_true, Bool.false_eq_true, if_false]

theorem State.takeSostenuto_followed (s : State) (due : s.pedals.filter.due = true) (follows : s.liveFollows = true) :
    s.takeSostenuto = (s.pedals.turned s.heldKeys).turnEvents.foldl (fun u e => u.offer .live e)
      (s.onPedals fun p => (p.turned s.heldKeys).turnReferred) := by
  have still : (s.onPedals (PedalUnit.turned s.heldKeys)).liveFollows = true := follows
  simp only [State.takeSostenuto, due, s.sostenutoTurns_followed follows, still, if_true]
  rw [State.offerSostenuto_eq, State.offerUnaCorda_afterOffers]
  rfl

theorem ScanFilter.due_iff (f : ScanFilter) : f.due = true ↔ f.count = 3 := decide_eq_true_iff

/-- A confirmation before its scan, with the sample that would be the third (R46). -/
theorem State.confirmSostenuto_notDue (sample : Sample) (s : State) (notDue : s.pedals.filter.count < 3) :
    s.confirmSostenuto sample = if s.pedals.filter.count = 2
        ∧ (if s.pedals.filter.on then sample.toNat ≤ 460 else 560 ≤ sample.toNat) then s.sostenutoTurns else s := by
  have waits : s.pedals.filter.due = false :=
    Bool.eq_false_iff.2 fun due => absurd (s.pedals.filter.due_iff.1 due) notDue.ne
  simp only [State.confirmSostenuto, waits, Bool.false_eq_true, if_false, Bool.and_eq_true, decide_eq_true_eq,
    sostenutoMeets_iff]

theorem State.confirmSostenuto_due (sample : Sample) (s : State) (three : s.pedals.filter.count = 3) :
    s.confirmSostenuto sample = s.takeSostenuto :=
  if_pos (s.pedals.filter.due_iff.2 three)

/-- Settles O27: after its scan the confirmation turns the filter and makes the offers left to it, before its scan it turns
alone, and in either case the live sostenuto follows where it follows the filter. -/
theorem sostenutoTurnsAtItsConfirmation : Obligations.SostenutoTurnsAtItsConfirmation := by
  intro s sample on on' merged value valueMoves confirmed turned offers follows answers
  have answers_of {t : State} (h : s.confirmSostenuto sample = t) : answers t :=
    (unlessReset_on (State.confirmSostenuto sample) s on).trans (congrArg _ h)
  have notFollows (h : ¬ follows) : s.liveFollows = false := Bool.eq_false_iff.2 (mt s.liveFollows_iff.1 h)
  have turns : s.pedals.turned s.heldKeys = turned := by
    refine (PedalUnit.merge_eq _ _).trans ?_
    rw [s.heldKeys_eq]
    rfl
  refine ⟨fun few => ?_, fun three => ⟨fun alone => ?_, fun followed => ?_⟩, fun two misses => ?_,
    fun two meets => ⟨fun alone => ?_, fun followed => ?_⟩⟩
  · exact answers_of ((s.confirmSostenuto_notDue sample (by omega)).trans (if_neg fun h => few.ne h.1))
  · exact answers_of ((s.confirmSostenuto_due sample three).trans
      (s.takeSostenuto_alone (s.pedals.filter.due_iff.2 three) (notFollows alone)))
  · refine answers_of ((s.confirmSostenuto_due sample three).trans
      ((s.takeSostenuto_followed (s.pedals.filter.due_iff.2 three) (s.liveFollows_iff.2 followed)).trans ?_))
    simp only [State.onPedals, turns]
    rfl
  · refine answers_of ((s.confirmSostenuto_notDue sample (by omega)).trans (if_neg fun ⟨_, meets⟩ => ?_))
    cases was : s.pedals.filter.on <;> simp only [was, if_true, Bool.false_eq_true, if_false] at misses meets <;> omega
  · exact answers_of ((s.confirmSostenuto_notDue sample (by omega)).trans
      ((if_pos ⟨two, meets⟩).trans (s.sostenutoTurns_alone (notFollows alone))))
  · refine answers_of ((s.confirmSostenuto_notDue sample (by omega)).trans ((if_pos ⟨two, meets⟩).trans ?_))
    rw [s.sostenutoTurns_followed (s.liveFollows_iff.2 followed), State.onPedals, turns]

end Sys2Proof.Machine
end

section
/-! PROOFS. Five settings of the host (R45, R79, R85, R131, R133, R195): each checked, and written alone. -/

namespace Sys2Proof.Machine

/-! ### What is served (R45, R79, R85) -/

/-- The reply to a request that is accepted when its check holds, and refused otherwise (R181). -/
theorem State.conclude_checked (kind : Byte) (check : Prop) [Decidable check] (t s : State) :
    State.conclude kind false (if check then .ok t else .refuse .badValue s)
      = if check then t.replying kind .ok [] else s.replying kind .badValue [] := by
  split <;> rfl

theorem serveSetPedalMap_eq (contact full : Half) (s : State) : serveSetPedalMap contact full s
    = if contact.toNat ≤ 1023 ∧ full.toNat ≤ 1023 ∧ contact.toNat < full.toNat
      then .ok { s with pedals := { s.pedals with map := ⟨contact.toNat, full.toNat⟩ } } else .refuse .badValue s :=
  if_congr (by omega) rfl rfl

theorem serveSetSoundOptions_eq (option : Byte) (s : State) : serveSetSoundOptions option s
    = if option.toNat ≤ 1 then .ok { s with voice := { s.voice with acousticLayer := option = 1 } }
      else .refuse .badValue s := by
  rw [serveSetSoundOptions, onOffOf_eq]
  by_cases known : option.toNat ≤ 1
  · rw [if_pos known, if_pos known]
    rfl
  · rw [if_neg known, if_neg known]

/-! ### Codes of channels and sides (11.3) -/

theorem channelOf_code {code : Byte} (c : Channel) (is : code.toNat = c.code) : channelOf code = some c := by
  rw [channelOf, is]
  cases c <;> rfl

theorem channelOf_unknown {code : Byte} (unknown : code.toNat = 0 ∨ 4 ≤ code.toNat) : channelOf code = none := by
  rw [channelOf]
  split
  case h_4 => rfl
  all_goals omega

theorem sideOf_code {code : Byte} (d : Side) (is : code.toNat = d.code) : sideOf code = some d := by
  rw [sideOf, is]
  cases d <;> rfl

theorem sideOf_unknown {code : Byte} (unknown : 2 ≤ code.toNat) : sideOf code = none := by
  rw [sideOf]
  split
  case h_3 => rfl
  all_goals omega

/-! ### SET OUTPUT GAIN (R131) -/

theorem setOutputGain_served (channel live playback : Byte) (s : State) (taking : s.taking) :
    exec (.setOutputGain channel live playback) s
      = .next (State.conclude 0x38#8 false (serveSetOutputGain channel live playback s)) :=
  unlessReset_arrive_taking (.setOutputGain channel live playback) s taking rfl

theorem setOutputGain_channel (c : Channel) (channel live playback : Byte) (s : State) (taking : s.taking)
    (is : channel.toNat = c.code) : exec (.setOutputGain channel live playback) s
      = .next (State.replying 0x38#8 .ok [] (s.onAudio (AudioPort.onGains c fun g =>
        ⟨{ g.live with target := live.toNat }, { g.playback with target := playback.toNat }⟩))) := by
  rw [setOutputGain_served _ _ _ s taking, serveSetOutputGain, channelOf_code c is]
  rfl

theorem setOutputGain_unknown (channel live playback : Byte) (s : State) (taking : s.taking)
    (unknown : channel.toNat = 0 ∨ 4 ≤ channel.toNat) :
    exec (.setOutputGain channel live playback) s = .next (s.replying 0x38#8 .badValue []) := by
  rw [setOutputGain_served _ _ _ s taking, serveSetOutputGain, channelOf_unknown unknown]
  rfl

/-! ### SET ROUTE (R133, R195) -/

theorem routeOf_off (side : Byte) : routeOf 0 side = some .off := rfl

theorem routeOf_out {channel side : Byte} (c : Channel) (d : Side) (channelIs : channel.toNat = c.code)
    (sideIs : side.toNat = d.code) : routeOf channel side = some (.out c d) := by
  have named : channel ≠ 0 := fun zero => by
    subst zero
    cases c <;> cases channelIs
  rw [routeOf, if_neg named, channelOf_code c channelIs, sideOf_code d sideIs]

theorem routeOf_unknown {channel side : Byte} (unknown : 4 ≤ channel.toNat ∨ channel ≠ 0 ∧ 2 ≤ side.toNat) :
    routeOf channel side = none := by
  obtain high | ⟨named, high⟩ := unknown
  · rw [routeOf, if_neg (by rintro rfl; simp at high), channelOf_unknown (.inr high)]
  · rw [routeOf, if_neg named, sideOf_unknown high]
    cases channelOf channel <;> rfl

theorem setRoute_served (slot channel side : Byte) (s : State) (taking : s.taking) : exec (.setRoute slot channel side) s
    = .next (State.conclude 0x39#8 false (serveSetRoute slot channel side s)) :=
  unlessReset_arrive_taking (.setRoute slot channel side) s taking rfl

/-- Settles O31: each request is served at once, with its check decided by the codes it carries. -/
theorem settingsAreCheckedAndWritten : Obligations.SettingsAreCheckedAndWritten := by
  intro s taking
  refine ⟨fun contact full => ?_, fun duty => ?_, fun option => ?_, fun live playback => ?_, fun slot channel side => ?_⟩
  · rw [← State.conclude_checked, ← serveSetPedalMap_eq]
    exact unlessReset_arrive_taking (.setPedalMap contact full) s taking rfl
  · rw [← State.conclude_checked]
    exact unlessReset_arrive_taking (.setRailDrive duty) s taking rfl
  · rw [← State.conclude_checked, ← serveSetSoundOptions_eq]
    exact unlessReset_arrive_taking (.setSoundOptions option) s taking rfl
  · refine ⟨setOutputGain_channel .hp1 _ _ _ s taking rfl, setOutputGain_channel .hp2 _ _ _ s taking rfl,
      setOutputGain_channel .line _ _ _ s taking rfl, fun channel unknown => ?_⟩
    exact setOutputGain_unknown _ _ _ s taking (unknown.imp_left (congrArg BitVec.toNat))
  · rw [setRoute_served slot channel side s taking, serveSetRoute]
    refine ⟨fun bad => ?_, fun inTable route codes => ?_⟩
    · split
      · rw [routeOf_unknown (bad.resolve_left (by omega))]
        rfl
      · rfl
    · have carried : routeOf channel side = some route := by
        obtain ⟨rfl, rfl⟩ | ⟨c, d, rfl, channelIs, -, sideIs⟩ := codes
        · exact routeOf_off side
        · exact routeOf_out c d channelIs sideIs
      rw [dif_pos inTable, carried]
      rfl

end Sys2Proof.Machine
end

section
/-! PROOFS. A record's firing (R48, R163, R164): what each kind does, by its key and the hand that sounds it. -/

namespace Sys2Proof.Machine

/-! ### A PLAYBACK note (R163) -/

/-- The played event of a note (R137, R138). -/
def NoteRequest.event : NoteRequest → RecorderEvent
  | .strike k l => .strike k l
  | .release k l => .release k l

/-- The state whose PLAYBACK note has been handed to the Voice Engine, with the held keys that it leaves (R163). -/
def State.noteHanded (n : NoteRequest) (held : List Key) (s : State) : State :=
  { s with
    voice := { s.voice with playbackRequests := s.voice.playbackRequests ++ [n] }
    player := { s.player with held := held } }

/-- A note handed over is offered as a played event, which commutes with the change of the held keys. -/
theorem State.handPlayback_eq (n : NoteRequest) (change : List Key → List Key) (s : State) :
    (s.handPlayback n).onPlayer (fun p => { p with held := change p.held })
      = (s.noteHanded n (change s.player.held)).offer .playback n.event := by
  cases n <;> exact State.offer_onPlayer ..

/-! ### A PEDAL record (R48, R49, R50) -/

/-- The playback pedals written and merged with the live ones. -/
def State.pedalsWritten (values : PedalValues) (s : State) : State :=
  { s with pedals := PedalUnit.merge s.heldKeys { s.pedals with playback := values } }

theorem State.pedalsWritten_eq (values : PedalValues) (s : State) :
    let on := s.pedals.live.sostenuto || values.sostenuto
    s.pedalsWritten values = { s with pedals := { s.pedals with
      playback := values, mergedLift := max s.pedals.live.lift values.lift, mergedSostenuto := on
      latch := if on then (if s.pedals.mergedSostenuto then s.pedals.latch else
        allKeys.filter fun k => decide (s.scanner.keys[k].phase ≠ .idle ∨ k ∈ s.player.held)) else [] } } := by
  rw [State.pedalsWritten, PedalUnit.merge_eq, s.heldKeys_eq]

/-! ### One record (R163, R164) -/

section
variable (r : Record) (s : State)

theorem State.fireRecord_nothing (kind : r.kind = 0 ∨ r.kind = 5 ∨ r.kind = 6) : s.fireRecord r = some s := by
  obtain kind | kind | kind := kind <;> simp only [State.fireRecord, kind] <;> rfl

theorem State.fireRecord_strike (k : Key) (kind : r.kind = 1) (key : r.key.toNat = k.val) : s.fireRecord r
    = some (if s.player.sounds k then
        (s.noteHanded (.strike k r.value) (insertKey k s.player.held)).offer .playback (.strike k r.value) else s) := by
  have handed := s.handPlayback_eq (.strike k r.value) (insertKey k)
  have known := (keyOf_eq_some r.key k).2 key
  cases sounds : s.player.sounds k <;> simp only [State.fireRecord, kind, known, sounds, if_true]
  · rfl
  · exact congrArg some handed

theorem State.fireRecord_release (k : Key) (kind : r.kind = 2) (key : r.key.toNat = k.val) : s.fireRecord r
    = some (if s.player.sounds k = true ∨ k ∈ s.player.held then
        (s.noteHanded (.release k r.value) (removeKey k s.player.held)).offer .playback (.release k r.value) else s) := by
  have handed := s.handPlayback_eq (.release k r.value) (removeKey k)
  have known := (keyOf_eq_some r.key k).2 key
  by_cases taken : s.player.sounds k = true ∨ k ∈ s.player.held <;>
    simp only [State.fireRecord, kind, known, Bool.or_eq_true, List.contains_iff_mem, taken, if_true, if_false]
  · exact congrArg some handed
  · rfl

theorem State.fireRecord_damper (kind : r.kind = 3) (key : r.key = 0) : s.fireRecord r
    = some ((s.pedalsWritten { s.pedals.playback with lift := r.value.toNat }).offer .playback (.pedal .damper r.value)) := by
  simp only [State.fireRecord, kind, key]
  rfl

theorem State.fireRecord_sostenuto (kind : r.kind = 3) (key : r.key = 1) : s.fireRecord r
    = some ((s.pedalsWritten { s.pedals.playback with sostenuto := decide (r.value.toNat ≠ 0) }).offer .playback
        (.pedal .sostenuto r.value)) := by
  have on : (r.value.toNat != 0) = decide (r.value.toNat ≠ 0) := by
    rw [Bool.eq_iff_iff, bne_iff_ne, decide_eq_true_iff]
  rw [← on]
  simp only [State.fireRecord, kind, key]
  rfl

theorem State.fireRecord_unaCorda (kind : r.kind = 3) (key : r.key = 2) : s.fireRecord r
    = some ((s.pedalsWritten { s.pedals.playback with
        unaCorda := r.value.toNat, u := r.value.toNat * 51 / 255 }).offer .playback (.pedal .unaCorda r.value)) := by
  simp only [State.fireRecord, kind, key]
  rfl

theorem State.fireRecord_gap (kind : r.kind = 4) : s.fireRecord r
    = some (s.onPlayer fun p => { p with gap := r.key.toNat + 256 * r.value.toNat }) := by
  simp only [State.fireRecord, kind]
  rfl

/-- A record of no known kind, or whose key byte names no key or no pedal, halts the player (R163, R172). -/
theorem State.fireRecord_bad (bad : 7 ≤ r.kind.toNat ∨ (r.kind = 1 ∨ r.kind = 2) ∧ 88 ≤ r.key.toNat
    ∨ r.kind = 3 ∧ 3 ≤ r.key.toNat) : s.fireRecord r = none := by
  obtain unknown | ⟨kind, key⟩ | ⟨kind, key⟩ := bad
  · unfold State.fireRecord
    split
    case h_8 => rfl
    all_goals omega
  · have noKey := (keyOf_eq_none r.key).2 key
    obtain kind | kind := kind <;> simp only [State.fireRecord, kind, noKey] <;> rfl
  · simp only [State.fireRecord, kind]
    show (match r.key.toNat with | 0 => _ | 1 => _ | 2 => _ | _ => none) = none
    split
    case h_4 => rfl
    all_goals omega

end

end Sys2Proof.Machine
end

section
/-! PROOFS. A playback tick (R158, R159): the due record's wait, its halt, or its firing. -/

namespace Sys2Proof.Machine

/-- The player of a given working copy sounds a key by its hands and the split key (R156). -/
theorem Player.sounds_copy (p : Player) (n : Fin 32) (seg : Segment) (copy : p.copy = some (n, seg)) (k : Key) :
    p.sounds k = handsSound seg.hands p.split k := by
  simp only [Player.sounds, Player.segment, copy, Option.map_some, Option.getD_some]

/-- A halt (R166, R172): the held keys' RELEASEs are offered in turn, and the player, the requests and the pedals are those of
the playback clearing. -/
theorem State.playerHalts_eq (halted : PlayerState) (s : State) :
    let u := s.player.held.foldl (fun u k => State.offer .playback (.release k 64) u) s
    s.playerHalts halted = State.raise .playHalt { u with
      player := { s.player with state := halted, held := [], expected := [], tempo := none, countdown := 0, gap := 0 }
      voice := { s.voice with playbackRequests := s.voice.playbackRequests
        ++ (s.player.held.map fun k => NoteRequest.release k 64) }
      pedals := (s.onPlayer fun p => { p with held := [] }).clearPlaybackPedals.pedals } := by
  intro u
  obtain ⟨r, n, h⟩ := s.offers_spec .playback (s.player.held.map fun k => RecorderEvent.release k 64)
  have offered : u = { s with recorder := r, link := { s.link with pendingSet := n } } := by
    rw [← h s rfl rfl rfl, List.foldl_map]
  rw [State.playerHalts, State.playbackClearing_eq, offered, h] <;> rfl

/-- A firing run of full fuel halts at a record that cannot fire (R163, R172). -/
theorem State.run_halts (zeroBegun : Bool) (s : State) (state : s.player.state = .running) (due : s.player.countdown = 0)
    (noWait : s.player.waitKey = none) (bad : s.fireRecord (passageAt s.player.passage s.player.slot) = none) :
    s.firingRun runFuel zeroBegun = s.playerHalts .haltedBadEvent := by
  rw [show runFuel = 16389 + 1 from rfl, State.firingRun_fires _ _ _ state due, noWait, bad]

/-- A firing run of full fuel begins the wait of its due record (R167). -/
theorem State.run_waits (zeroBegun : Bool) (k : Key) (s : State) (state : s.player.state = .running)
    (due : s.player.countdown = 0) (wait : s.player.waitKey = some k) :
    s.firingRun runFuel zeroBegun = s.beginWait k := by
  rw [show runFuel = 16389 + 1 from rfl, State.firingRun_fires _ _ _ state due, wait]

/-- A firing run of full fuel that fires a record inside its range goes on with the next one (R159). -/
theorem State.run_goesOn (zeroBegun : Bool) (s f : State) (n : Fin 32) (seg : Segment) (copy : s.player.copy = some (n, seg))
    (ranges : s.player.rangesOk) (state : s.player.state = .running) (due : s.player.countdown = 0)
    (noWait : s.player.waitKey = none) (fires : s.fireRecord (passageAt s.player.passage s.player.slot) = some f)
    (inside : s.player.slot + 1 < seg.start + seg.count) :
    s.firingRun runFuel zeroBegun = State.firingRun runFuel zeroBegun { f with player := { f.player with
      slot := s.player.slot + 1
      countdown := (passageAt s.player.passage (s.player.slot + 1)).delta.toNat + f.player.gap, gap := 0 } } := by
  have same := State.fireRecord_player _ _ _ fires
  have slot : f.player.slot = s.player.slot := by rw [same]
  have passage : f.player.passage = s.player.passage := by rw [same]
  have range : f.player.segment = seg := by
    have copied : f.player.copy = s.player.copy := by rw [same]
    simp only [Player.segment, copied, copy, Option.map_some, Option.getD_some]
  rw [State.run_fires zeroBegun s f ranges state due noWait fires, if_pos (by rw [slot, range]; exact inside)]
  simp only [State.onPlayer, slot, passage]

/-- Settles O52: the tick's reload and countdown, each record by its kind, and the run by what the due record begins. -/
theorem playbackTicksFireOrWait : Obligations.PlaybackTicksFireOrWait := by
  refine ⟨fun s on notDue => ?_, fun s n seg on due running copy => ?_,
    fun s zeroBegun stops => State.firingRun_stops _ _ _ stops, fun s n seg copy => ?_⟩
  · exact (unlessReset_on State.takePlaybackTick s on).trans (congrArg _ (if_neg notDue))
  · refine (unlessReset_on State.takePlaybackTick s on).trans (congrArg _ ((if_pos due).trans ?_))
    rw [State.playbackTick, s.reloadTempo_copy n seg copy]
    rfl
  intro p sounds
  have sounding : sounds = s.player.sounds := funext fun k => Eq.trans rfl (Player.sounds_copy _ n seg copy k).symm
  clear_value sounds
  subst sounding
  refine ⟨?_, ?_⟩
  · intro r handed merged value
    refine ⟨s.fireRecord_nothing r, fun k kind key => ⟨fun on => ⟨_, fun j => mem_insertKey, ?_⟩, fun off => ?_⟩,
      fun k kind key => ⟨fun taken => ⟨_, fun j => mem_removeKey.trans and_comm, ?_⟩, fun off free => ?_⟩,
      fun kind => ⟨fun key => ?_, fun key => ?_, fun key => ?_⟩, s.fireRecord_gap r, s.fireRecord_bad r⟩
    · rw [s.fireRecord_strike r k kind key, if_pos on]
      rfl
    · rw [s.fireRecord_strike r k kind key, if_neg (Bool.eq_false_iff.1 off)]
    · rw [s.fireRecord_release r k kind key, if_pos taken]
      rfl
    · rw [s.fireRecord_release r k kind key, if_neg (not_or.2 ⟨Bool.eq_false_iff.1 off, free⟩)]
    · rw [s.fireRecord_damper r kind key, State.pedalsWritten_eq]
    · rw [s.fireRecord_sostenuto r kind key, State.pedalsWritten_eq]
    · rw [s.fireRecord_unaCorda r kind key, State.pedalsWritten_eq]
  · intro zeroBegun ranges state due record run waits
    have range : p.segment = seg := by simp only [p, Player.segment, copy, Option.map_some, Option.getD_some]
    have waits_iff (k : Key) : s.player.waitKey = some k ↔ waits k := by
      rw [Player.waitKey_eq_some, show s.player.segment = seg from range]
    refine ⟨fun k wait => ?_, fun noWait => ?_⟩
    · obtain ⟨examined, examines, begins⟩ := s.beginWait_eq k
      have ⟨_, _, _, muted, _⟩ := wait
      obtain ⟨first, most, allMuted⟩ := s.player.gathers_spec k examined muted examines
      exact ⟨examined, examines, first, most, allMuted,
        (s.run_waits zeroBegun k state due ((waits_iff k).2 wait)).trans begins⟩
    · have none' : s.player.waitKey = none :=
        Option.eq_none_iff_forall_ne_some.2 fun k wait => noWait k ((waits_iff k).1 wait)
      refine ⟨fun bad => ?_, fun f fires inside => s.run_goesOn zeroBegun f n seg copy ranges state due none' fires inside⟩
      intro u t
      have halts : t = _ := (s.run_halts zeroBegun state due none' bad).trans (s.playerHalts_eq _)
      rw [halts]
      exact ⟨rfl, rfl, rfl, rfl, rfl⟩

end Sys2Proof.Machine
end

section
/-! PROOFS. Runs of records in the two blocks (R136, R139, R141): what fits, what fills a block, and what is cut off. -/

namespace Sys2Proof.Machine

/-! ### The two blocks -/

@[simp] theorem BlockName.other_other (n : BlockName) : n.other.other = n := by cases n <;> rfl

section
variable (n : BlockName) (b : RecordBlock) (r : Recorder)

@[simp] theorem Recorder.block_withBlock : (r.withBlock n b).block n = b := by cases n <;> rfl

@[simp] theorem Recorder.other_withBlock : (r.withBlock n b).block n.other = r.block n.other := by cases n <;> rfl

@[simp] theorem Recorder.withBlock_withBlock (b' : RecordBlock) : (r.withBlock n b').withBlock n b = r.withBlock n b := by
  cases n <;> rfl

@[simp] theorem Recorder.lastWritten_withBlock : (r.withBlock n b).lastWritten = r.lastWritten := by cases n <;> rfl

theorem Recorder.activeBlock_of_active (active : (r.block n).state = .active) (other : (r.block n.other).state ≠ .active) :
    r.activeBlock = some n := by
  cases n
  · exact if_pos active
  · exact (if_neg other).trans (if_pos active)

theorem Recorder.activeBlock_of_neither (this : (r.block n).state ≠ .active) (other : (r.block n.other).state ≠ .active) :
    r.activeBlock = none := by
  cases n
  · exact (if_neg this).trans (if_neg other)
  · exact (if_neg other).trans (if_neg this)

end

/-! ### A full block (R141) -/

section
variable (n : BlockName) (l : List Record) (r : Recorder)

/-- The recorder whose block holds these records and is ACTIVE. -/
def Recorder.holding : Recorder := r.withBlock n ⟨.active, l⟩

/-- The recorder whose block holds these records and has become READY, with an order of the READY blocks (R141). -/
def Recorder.filled (order : Option BlockName) : Recorder :=
  { r.withBlock n ⟨.ready r.sequence, l⟩ with sequence := r.sequence + 1, readyFirst := order }

/-- A full block becomes READY after the READY other one. -/
theorem Recorder.handOver_ready (other : (r.block n.other).state.isReady = true) :
    (r.holding n l).handOver n = r.filled n l (some n.other) := by
  have notEmpty : (r.block n.other).state ≠ .empty := fun h => by rw [h] at other; cases other
  cases n <;> simp_all [Recorder.handOver, Recorder.becomeReady, Recorder.holding, Recorder.filled, Recorder.withBlock,
    Recorder.block, BlockName.other]

/-- A full block becomes READY, and the EMPTY other one ACTIVE. -/
theorem Recorder.handOver_empty (other : (r.block n.other).state = .empty) :
    (r.holding n l).handOver n = (r.filled n l none).holding n.other [] := by
  cases n <;> simp_all [Recorder.handOver, Recorder.becomeReady, Recorder.holding, Recorder.filled, Recorder.withBlock,
    Recorder.block, BlockName.other, BlockState.isReady]

theorem Recorder.filled_block (order : Option BlockName) : (r.filled n l order).block n = ⟨.ready r.sequence, l⟩ := by
  cases n <;> rfl

theorem Recorder.filled_other (order : Option BlockName) : (r.filled n l order).block n.other = r.block n.other := by
  cases n <;> rfl

end

/-! ### A run of records (R139, R141) -/

/-- Records written one after the other; none when no block is ACTIVE for one of them. -/
def Recorder.appendAll : List Record → Recorder → Option Recorder
  | [], r => some r
  | rec :: rest, r => (r.append rec).bind (Recorder.appendAll rest)

theorem Recorder.appendAll_singleton (rec : Record) (r : Recorder) : r.appendAll [rec] = r.append rec := by
  rw [Recorder.appendAll]
  cases r.append rec <;> rfl

theorem Recorder.appendAll_append (l l' : List Record) (r : Recorder) :
    r.appendAll (l ++ l') = (r.appendAll l).bind (Recorder.appendAll l') := by
  induction l generalizing r with
  | nil => rfl
  | cons rec rest ih =>
    simp only [List.cons_append, Recorder.appendAll]
    cases r.append rec with
    | none => rfl
    | some r' => exact ih r'

section
variable {n : BlockName} {r : Recorder} (other : (r.block n.other).state ≠ .active)
include other

theorem Recorder.append_holding (l : List Record) (rec : Record) : (r.holding n l).append rec
    = some (if l.length < 47 then r.holding n (l ++ [rec]) else (r.holding n (l ++ [rec])).handOver n) := by
  have active : (r.holding n l).activeBlock = some n :=
    Recorder.activeBlock_of_active n _ (by rw [holding, block_withBlock]) (by rwa [holding, other_withBlock])
  have room : l.length + 1 < 48 ↔ l.length < 47 := by omega
  simp only [Recorder.append, active, Config.blockRecords]
  simp only [Recorder.holding, Recorder.block_withBlock, Recorder.withBlock_withBlock, room]

theorem Recorder.appendAll_fits (old l : List Record) (fits : old.length + l.length < 48) :
    (r.holding n old).appendAll l = some (r.holding n (old ++ l)) := by
  induction l generalizing old with
  | nil => rw [List.append_nil, Recorder.appendAll]
  | cons rec rest ih =>
    rw [List.length_cons] at fits
    rw [Recorder.appendAll, Recorder.append_holding other, if_pos (by omega), Option.bind_some, ih _ (by simp; omega),
      List.append_assoc, List.singleton_append]

theorem Recorder.appendAll_fills (old l : List Record) (room : old.length < 48) (fills : old.length + l.length = 48) :
    (r.holding n old).appendAll l = some ((r.holding n (old ++ l)).handOver n) := by
  obtain rfl | ⟨init, last, rfl⟩ := l.eq_nil_or_concat'
  · exact absurd fills room.ne
  · simp only [List.length_append, List.length_cons, List.length_nil] at fills
    rw [Recorder.appendAll_append, Recorder.appendAll_fits other _ _ (by omega), Option.bind_some, Recorder.appendAll,
      Recorder.append_holding other, if_neg (by simp; omega), Option.bind_some, Recorder.appendAll, List.append_assoc]

end

section
variable (n : BlockName) (r : Recorder) (old l : List Record)

/-- A run that reaches past the 48th record of its block goes on in the other one, where that is EMPTY (R141). -/
theorem Recorder.appendAll_goesOn (other : (r.block n.other).state = .empty) (room : old.length < 48)
    (past : 48 ≤ old.length + l.length) (fits : old.length + l.length < 96) : (r.holding n old).appendAll l
      = some ((r.filled n ((old ++ l).take 48) none).holding n.other ((old ++ l).drop 48)) := by
  have notActive : (r.block n.other).state ≠ .active := fun h => by rw [other] at h; cases h
  have front : (old ++ l).take 48 = old ++ l.take (48 - old.length) := by
    rw [List.take_append, List.take_of_length_le (by omega)]
  have back : (old ++ l).drop 48 = l.drop (48 - old.length) := by
    rw [List.drop_append, List.drop_of_length_le (by omega), List.nil_append]
  have first := Recorder.appendAll_fills notActive old (l.take (48 - old.length)) room (by rw [List.length_take]; omega)
  rw [← front, Recorder.handOver_empty _ _ _ other] at first
  have ready : ((r.filled n ((old ++ l).take 48) none).block n.other.other).state ≠ .active := by
    rw [BlockName.other_other, Recorder.filled_block]
    exact nofun
  calc (r.holding n old).appendAll l
    _ = ((r.holding n old).appendAll (l.take (48 - old.length))).bind
          (Recorder.appendAll ((old ++ l).drop 48)) := by
        rw [back, ← Recorder.appendAll_append, List.take_append_drop]
    _ = _ := by
        rw [first, Option.bind_some, Recorder.appendAll_fits ready _ _ (by simp; omega), List.nil_append]

/-- A run that fills its block while the other one is READY (R141). -/
theorem Recorder.appendAll_last (other : (r.block n.other).state.isReady = true) (room : old.length < 48)
    (fills : old.length + l.length = 48) :
    (r.holding n old).appendAll l = some (r.filled n (old ++ l) (some n.other)) := by
  have notActive : (r.block n.other).state ≠ .active := fun h => by rw [h] at other; cases other
  rw [Recorder.appendAll_fills notActive _ _ room fills, Recorder.handOver_ready _ _ _ other]

end

end Sys2Proof.Machine
end

section
/-! PROOFS. A record written after its time (R139): the GAP records before it, and what a full recorder cuts off. -/

namespace Sys2Proof.Machine

/-! ### A time as GAP records and a delta (R139) -/

/-- The times of the GAP records that a time before a record takes. -/
def timeGaps (wait : Nat) : List Nat :=
  List.replicate (wait / 65535) 65535 ++ (if 255 < wait % 65535 then [wait % 65535] else [])

/-- The delta of the record itself. -/
def timeDelta (wait : Nat) : Nat := if 255 < wait % 65535 then 0 else wait % 65535

theorem timeGaps_short {wait : Nat} (short : wait ≤ 255) : timeGaps wait = [] ∧ timeDelta wait = wait := by
  have small : wait % 65535 = wait := Nat.mod_eq_of_lt (by omega)
  have none' : wait / 65535 = 0 := Nat.div_eq_of_lt (by omega)
  simp only [timeGaps, timeDelta, small, none', if_neg (not_lt.2 short), List.replicate_zero, List.append_nil, and_self]

theorem timeGaps_most {wait : Nat} (most : 65535 ≤ wait) : timeGaps wait = 65535 :: timeGaps (wait - 65535) := by
  have quotient : wait / 65535 = (wait - 65535) / 65535 + 1 := by omega
  have rest : (wait - 65535) % 65535 = wait % 65535 := by omega
  unfold timeGaps
  rw [rest, quotient, List.replicate_succ, List.cons_append]

theorem timeDelta_most {wait : Nat} (most : 65535 ≤ wait) : timeDelta wait = timeDelta (wait - 65535) := by
  have rest : (wait - 65535) % 65535 = wait % 65535 := by omega
  simp only [timeDelta, rest]

/-- A long time is its first GAP record and the time that remains. -/
theorem timeGaps_long {wait : Nat} (long : 255 < wait) :
    timeGaps wait = min wait 65535 :: timeGaps (wait - min wait 65535)
    ∧ timeDelta wait = timeDelta (wait - min wait 65535) := by
  obtain most | less := le_or_gt 65535 wait
  · rw [min_eq_right most]
    exact ⟨timeGaps_most most, timeDelta_most most⟩
  · have small : wait % 65535 = wait := Nat.mod_eq_of_lt less
    have none' : wait / 65535 = 0 := Nat.div_eq_of_lt less
    rw [min_eq_left less.le, Nat.sub_self]
    simp [timeGaps, timeDelta, small, none', long]

theorem timeGaps_eq_nil {wait : Nat} : timeGaps wait = [] ↔ wait ≤ 255 :=
  ⟨fun h => not_lt.1 fun long => List.cons_ne_nil _ _ ((timeGaps_long long).1.symm.trans h),
    fun short => (timeGaps_short short).1⟩

theorem timeDelta_le (wait : Nat) : timeDelta wait ≤ 255 := by
  unfold timeDelta
  split <;> omega

/-- The first GAP records hold the time before the delta, up to the most each can hold. -/
theorem sum_take_timeGaps {wait m : Nat} (inside : m ≤ (timeGaps wait).length) :
    ((timeGaps wait).take m).sum = min (wait - timeDelta wait) (65535 * m) := by
  induction m generalizing wait with
  | zero => simp
  | succ m ih =>
    have long : 255 < wait := by
      by_contra short
      simp [(timeGaps_short (not_lt.1 short)).1] at inside
    obtain ⟨gaps, delta⟩ := timeGaps_long long
    rw [gaps, List.length_cons] at inside
    rw [gaps, delta, List.take_succ_cons, List.sum_cons, ih (by omega)]
    have small := timeDelta_le (wait - min wait 65535)
    by_cases most : 65535 ≤ wait
    · rw [min_eq_right most] at small inside ⊢
      have : timeDelta (wait - 65535) ≤ wait - 65535 := by unfold timeDelta; split <;> omega
      omega
    · rw [min_eq_left (by omega), Nat.sub_self] at inside ⊢
      rw [timeGaps_eq_nil.2 (Nat.zero_le _)] at inside
      have zero : timeDelta 0 = 0 := rfl
      simp only [List.length_nil] at inside
      omega

theorem ageOf_add {now stamp : Time} {gap : Nat} (le : gap ≤ ageOf now stamp) :
    ageOf now (stamp + BitVec.ofNat 32 gap) = ageOf now stamp - gap := by
  unfold ageOf at *
  have bound := (now - stamp).isLt
  have same : now - (stamp + BitVec.ofNat 32 gap) = now - stamp - BitVec.ofNat 32 gap := by
    rw [BitVec.sub_sub]
  rw [same, BitVec.toNat_sub_of_le]
  · rw [BitVec.toNat_ofNat, Nat.mod_eq_of_lt (by omega)]
  · rw [BitVec.le_def, BitVec.toNat_ofNat, Nat.mod_eq_of_lt (by omega)]
    exact le

/-! ### The last-written stamp (R139) -/

/-- The recorder with its last-written stamp at a time. -/
def Recorder.writtenAt (time : Time) (r : Recorder) : Recorder := { r with lastWritten := time }

/-- Which record is written where does not depend on the stamp. -/
theorem Recorder.append_writtenAt (time : Time) (rec : Record) (r : Recorder) :
    (r.writtenAt time).append rec = (r.append rec).map (Recorder.writtenAt time) := by
  have active : (r.writtenAt time).activeBlock = r.activeBlock := rfl
  have withBlock (n : BlockName) (b : RecordBlock) : (r.writtenAt time).withBlock n b = (r.withBlock n b).writtenAt time := by
    cases n <;> rfl
  have block (n : BlockName) : (r.writtenAt time).block n = r.block n := by cases n <;> rfl
  have handOver (n : BlockName) (q : Recorder) : (q.writtenAt time).handOver n = (q.handOver n).writtenAt time := by
    cases n <;> simp only [Recorder.handOver, apply_ite (Recorder.writtenAt time)] <;> rfl
  simp only [Recorder.append, active]
  cases r.activeBlock with
  | none => rfl
  | some n => simp only [Option.map_some, withBlock, block, handOver, apply_ite (Recorder.writtenAt time)]

theorem Recorder.appendAll_writtenAt (time : Time) (l : List Record) (r : Recorder) :
    (r.writtenAt time).appendAll l = (r.appendAll l).map (Recorder.writtenAt time) := by
  induction l generalizing r with
  | nil => rfl
  | cons rec rest ih =>
    simp only [Recorder.appendAll, Recorder.append_writtenAt]
    cases r.append rec with
    | none => rfl
    | some r' => exact ih r'

/-! ### Writing after a time -/

section
variable {time : Time} {rec : Byte → Record}

theorem Recorder.writeTimed_now (fuel : Nat) (r : Recorder) (short : ageOf time r.lastWritten ≤ 255) :
    r.writeTimed time rec (fuel + 1) = match r.append (rec (BitVec.ofNat 8 (ageOf time r.lastWritten))) with
      | some r => (r.writtenAt time, true)
      | none => (r, false) := if_pos short

theorem Recorder.writeTimed_gap (fuel : Nat) (r r' : Recorder) (long : 255 < ageOf time r.lastWritten)
    (written : r.append (gapRecord (min (ageOf time r.lastWritten) 65535)) = some r') :
    r.writeTimed time rec (fuel + 1) = Recorder.writeTimed time rec fuel
      (r'.writtenAt (r.lastWritten + BitVec.ofNat 32 (min (ageOf time r.lastWritten) 65535))) := by
  refine (if_neg (not_le.2 long)).trans ?_
  simp only [written]
  rfl

/-- With no block ACTIVE nothing is written. -/
theorem Recorder.writeTimed_none (fuel : Nat) (r : Recorder) (full : r.activeBlock = none) :
    r.writeTimed time rec fuel = (r, false) := by
  have refused (rec : Record) : r.append rec = none := by simp only [Recorder.append, full]
  cases fuel with
  | zero => rfl
  | succ fuel => simp only [Recorder.writeTimed, refused, ite_self]

/-- The first GAP records of a time, where they are written: the stamp has moved past them, and the time after them remains. -/
theorem Recorder.writeTimed_gaps (first rest : List Nat) (fuel : Nat) (r r' : Recorder)
    (gaps : timeGaps (ageOf time r.lastWritten) = first ++ rest) (written : r.appendAll (first.map gapRecord) = some r') :
    let reached := r.lastWritten + BitVec.ofNat 32 first.sum
    r.writeTimed time rec (fuel + first.length) = Recorder.writeTimed time rec fuel (r'.writtenAt reached)
      ∧ timeGaps (ageOf time reached) = rest ∧ timeDelta (ageOf time reached) = timeDelta (ageOf time r.lastWritten) := by
  induction first generalizing r r' with
  | nil =>
    obtain rfl : r = r' := Option.some.inj written
    rw [List.sum_nil, BitVec.add_zero]
    exact ⟨rfl, gaps, rfl⟩
  | cons gap first ih =>
    have long : 255 < ageOf time r.lastWritten := by
      by_contra short
      rw [timeGaps_eq_nil.2 (not_lt.1 short)] at gaps
      cases gaps
    obtain ⟨gaps', delta⟩ := timeGaps_long long
    rw [gaps', List.cons_append, List.cons.injEq] at gaps
    obtain ⟨rfl, gaps⟩ := gaps
    rw [← ageOf_add (min_le_left _ _)] at gaps delta
    obtain ⟨r1, here, after⟩ := Option.bind_eq_some_iff.1 written
    have step := Recorder.writeTimed_gap (rec := rec) (fuel + first.length) r r1 long here
    have goesOn := ih (r1.writtenAt _) (r'.writtenAt _) gaps (by rw [Recorder.appendAll_writtenAt, after, Option.map_some])
    have reached : r.lastWritten + BitVec.ofNat 32 (min (ageOf time r.lastWritten) 65535 :: first).sum
        = r.lastWritten + BitVec.ofNat 32 (min (ageOf time r.lastWritten) 65535) + BitVec.ofNat 32 first.sum := by
      rw [List.sum_cons, BitVec.ofNat_add, BitVec.add_assoc]
    obtain ⟨run, gapsLeft, deltaLeft⟩ := goesOn
    rw [reached]
    exact ⟨step.trans run, gapsLeft, deltaLeft.trans delta.symm⟩

/-- The records that a record after a time takes: its GAP records, and itself with the delta (R139). -/
def timedRecords (rec : Byte → Record) (wait : Nat) : List Record :=
  (timeGaps wait).map gapRecord ++ [rec (BitVec.ofNat 8 (timeDelta wait))]

theorem length_timedRecords (rec : Byte → Record) (wait : Nat) :
    (timedRecords rec wait).length = (timeGaps wait).length + 1 := by simp [timedRecords]

/-- Where all of them are written, so is the record. -/
theorem Recorder.writeTimed_all (fuel : Nat) (r r' : Recorder)
    (written : r.appendAll (timedRecords rec (ageOf time r.lastWritten)) = some r')
    (enough : (timedRecords rec (ageOf time r.lastWritten)).length ≤ fuel) :
    r.writeTimed time rec fuel = (r'.writtenAt time, true) := by
  rw [length_timedRecords] at enough
  rw [timedRecords, Recorder.appendAll_append, Option.bind_eq_some_iff] at written
  obtain ⟨r1, gapsWritten, last⟩ := written
  obtain ⟨left, rfl⟩ := Nat.exists_eq_add_of_le' enough
  obtain ⟨run, gapsLeft, deltaLeft⟩ := Recorder.writeTimed_gaps (rec := rec) _ [] (left + 1) r r1
    (List.append_nil _).symm gapsWritten
  rw [show left + ((timeGaps (ageOf time r.lastWritten)).length + 1)
    = left + 1 + (timeGaps (ageOf time r.lastWritten)).length by omega, run]
  have short := timeGaps_eq_nil.1 gapsLeft
  rw [(timeGaps_short short).2] at deltaLeft
  rw [Recorder.appendAll_singleton, ← deltaLeft] at last
  refine (Recorder.writeTimed_now left (r1.writtenAt _) short).trans ?_
  rw [Recorder.append_writtenAt]
  simp only [Recorder.writtenAt] at last ⊢
  rw [last]
  rfl

/-- Where a full recorder cuts the GAP records off, those written are kept, with the time they reach. -/
theorem Recorder.writeTimed_cut (m fuel : Nat) (r r' : Recorder)
    (written : r.appendAll (((timeGaps (ageOf time r.lastWritten)).take m).map gapRecord) = some r')
    (full : r'.activeBlock = none) (inside : m ≤ (timeGaps (ageOf time r.lastWritten)).length) (enough : m ≤ fuel) :
    r.writeTimed time rec fuel = (r'.writtenAt (r.lastWritten + BitVec.ofNat 32
      (min (ageOf time r.lastWritten - timeDelta (ageOf time r.lastWritten)) (65535 * m))), false) := by
  obtain ⟨left, rfl⟩ := Nat.exists_eq_add_of_le' enough
  have run := (Recorder.writeTimed_gaps (rec := rec) _ _ left r r' (List.take_append_drop m _).symm written).1
  rw [List.length_take_of_le inside, sum_take_timeGaps inside] at run
  exact run.trans (Recorder.writeTimed_none left _ full)

end

end Sys2Proof.Machine
end

section
/-! PROOFS. The four requests of the recorder (R53, R141, R143 to R147). -/

namespace Sys2Proof.Machine

/-! ### Offers at the last-written time (R138, R139) -/

theorem Recorder.holding_writtenAt (n : BlockName) (l : List Record) (r : Recorder) :
    (r.holding n l).writtenAt r.lastWritten = r.holding n l := by cases n <;> rfl

/-- An event without time before it, into an ACTIVE block with room, is one record of delta 0. -/
theorem Recorder.take_now (n : BlockName) (e : RecorderEvent) (l : List Record) (r : Recorder)
    (other : (r.block n.other).state ≠ .active) (room : l.length < 47) :
    (r.holding n l).take r.lastWritten e = (r.holding n (l ++ [e.record 0]), false) := by
  have age : ageOf r.lastWritten (r.holding n l).lastWritten = 0 := by
    simp [Recorder.holding, ageOf]
  have one : timedRecords e.record 0 = [e.record 0] := rfl
  have fits : (r.holding n l).appendAll [e.record 0] = some (r.holding n (l ++ [e.record 0])) :=
    Recorder.appendAll_fits other l _ (show l.length + 1 < 48 by omega)
  have written := Recorder.writeTimed_all (time := r.lastWritten) (rec := e.record) timedFuel (r.holding n l) _
    (by rw [age, one]; exact fits) (by rw [age, one]; exact Nat.le_add_left 1 96)
  simp only [Recorder.take, written, Recorder.holding_writtenAt]

/-- A run of events taken at the last-written time, while they fit. -/
theorem State.offers_now (source : Source) (n : BlockName) (events : List RecorderEvent) (l : List Record) (q : Recorder)
    (s : State) (holds : s.recorder = q.holding n l) (recording : q.recording = true) (mask : q.mask.includes source = true)
    (now : s.perfClock = q.lastWritten) (other : (q.block n.other).state ≠ .active) (fits : l.length + events.length < 48) :
    events.foldl (fun u e => u.offer source e) s
      = { s with recorder := q.holding n (l ++ events.map fun e => e.record 0) } := by
  induction events generalizing l s with
  | nil => rw [List.map_nil, List.append_nil, ← holds, List.foldl_nil]
  | cons e rest ih =>
    rw [List.length_cons] at fits
    have same : s.recorder.recording = q.recording ∧ s.recorder.mask = q.mask := by
      rw [holds]
      cases n <;> exact ⟨rfl, rfl⟩
    have first : s.offer source e = { s with recorder := q.holding n (l ++ [e.record 0]) } := by
      have taken := Recorder.take_now n e l q other (by omega)
      rw [← holds, ← now] at taken
      simp only [State.offer, same, recording, mask, Bool.and_self, if_true, taken]
      rfl
    have others := ih (l ++ [e.record 0]) { s with recorder := q.holding n (l ++ [e.record 0]) } rfl now (by simp; omega)
    rw [List.foldl_cons, first, others, List.map_cons, List.append_assoc, List.singleton_append]

/-! ### RECORD START (R53, R144) -/

theorem recordStart_served (mask : Byte) (s : State) (taking : s.taking) :
    exec (.recordStart mask) s = .next (State.conclude 0x40#8 false (serveRecordStart mask s)) :=
  unlessReset_arrive_taking (.recordStart mask) s taking rfl

theorem maskOf_unknown {mask : Byte} (unknown : mask.toNat = 0 ∨ 4 ≤ mask.toNat) : maskOf mask = none := by
  rw [maskOf]
  split
  case h_4 => rfl
  all_goals omega

theorem maskOf_known {mask : Byte} (least : 1 ≤ mask.toNat) (most : mask.toNat ≤ 3) : ∃ m, maskOf mask = some m := by
  have code : mask.toNat = 1 ∨ mask.toNat = 2 ∨ mask.toNat = 3 := by omega
  rw [maskOf]
  obtain code | code | code := code <;> rw [code] <;> exact ⟨_, rfl⟩

/-- The recorder's references moved to the live values (R53). -/
def PedalUnit.opened (p : PedalUnit) : PedalUnit :=
  { p with refLift := p.live.lift, refSostenuto := p.live.sostenuto, refUnaCorda := p.live.unaCorda }

/-- The three opening records (R53). -/
def PedalValues.openingEvents (v : PedalValues) : List RecorderEvent :=
  [.pedal .damper (BitVec.ofNat 8 v.lift), .pedal .sostenuto (onByte v.sostenuto),
    .pedal .unaCorda (BitVec.ofNat 8 v.unaCorda)]

theorem State.offerOpening_eq (s : State) : s.offerOpening
    = (s.pedals.live.openingEvents.foldl (fun u e => u.offer .live e) s).onPedals fun _ => s.pedals.opened := by
  have kept := s.offers_pedals .live s.pedals.live.openingEvents
  simp only [PedalValues.openingEvents, List.foldl] at kept ⊢
  simp only [State.offerOpening, State.onPedals, kept]
  rfl

/-- A recording that takes live events opens with the three values. -/
theorem State.offerOpening_live (m : SourceMask) (s : State) (mask : m.includes .live = true) :
    (s.onRecorder (Recorder.start m s.perfClock)).offerOpening = { s with
      recorder := (s.recorder.start m s.perfClock).holding .a (s.pedals.live.openingEvents.map fun e => e.record 0)
      pedals := s.pedals.opened } := by
  have fits : ([] : List Record).length + s.pedals.live.openingEvents.length < 48 := by
    show 3 < 48
    decide
  have offered := State.offers_now .live .a s.pedals.live.openingEvents [] (s.recorder.start m s.perfClock)
    (s.onRecorder (Recorder.start m s.perfClock)) rfl rfl mask rfl nofun fits
  exact (State.offerOpening_eq _).trans (congrArg (State.onPedals fun _ => s.pedals.opened) offered)

/-- A recording that takes playback events alone opens with none. -/
theorem State.offerOpening_playback (s : State) : (s.onRecorder (Recorder.start .playback s.perfClock)).offerOpening
    = { s with recorder := s.recorder.start .playback s.perfClock, pedals := s.pedals.opened } := rfl

/-- An accepted RECORD START (R144). -/
theorem recordStart_accepted (mask : Byte) (m : SourceMask) (s : State) (taking : s.taking) (known : maskOf mask = some m)
    (off : s.recorder.recording = false) (noneReady : s.recorder.anyReady = false) : exec (.recordStart mask) s
      = .next (State.replying 0x40#8 .ok [] (s.onRecorder (Recorder.start m s.perfClock)).offerOpening) := by
  rw [recordStart_served mask s taking, serveRecordStart, known]
  simp only [off, noneReady, Bool.or_self, Bool.false_eq_true, if_false]
  rfl

/-! ### RECORD STOP and RECORD FLUSH (R145, R146) -/

theorem recordStop_served (s : State) (taking : s.taking) :
    exec .recordStop s = .next (State.conclude 0x41#8 false (serveRecordStop s)) :=
  unlessReset_arrive_taking .recordStop s taking rfl

theorem recordFlush_served (s : State) (taking : s.taking) :
    exec .recordFlush s = .next (State.conclude 0x42#8 false (serveRecordFlush s)) :=
  unlessReset_arrive_taking .recordFlush s taking rfl

theorem recordStop_recording (s : State) (taking : s.taking) (on : s.recorder.recording = true) :
    exec .recordStop s = .next (State.replying 0x41#8 .ok [] { s with recorder := s.recorder.stop }) := by
  rw [recordStop_served s taking, serveRecordStop, if_pos on]
  rfl

theorem recordFlush_recording (s : State) (taking : s.taking) (on : s.recorder.recording = true) :
    exec .recordFlush s = .next (State.replying 0x42#8 .ok [] { s with recorder := s.recorder.flush }) := by
  rw [recordFlush_served s taking, serveRecordFlush, if_pos on]
  rfl

section
variable (n : BlockName) (r : Recorder)

theorem Recorder.stop_none (none' : r.activeBlock = none) : r.stop = { r with recording := false } := by
  simp only [Recorder.stop, none']

theorem Recorder.flush_none (none' : r.activeBlock = none) : r.flush = r := by
  simp only [Recorder.flush, none']

variable (active : r.activeBlock = some n)
include active

theorem Recorder.stop_blank (blank : (r.block n).records = []) :
    r.stop = { r.withBlock n ⟨.empty, []⟩ with recording := false } := by
  simp only [Recorder.stop, active, blank, List.isEmpty_nil, if_true]

theorem Recorder.flush_blank (blank : (r.block n).records = []) : r.flush = r := by
  simp only [Recorder.flush, active, blank, List.isEmpty_nil, if_true]

theorem Recorder.stop_records (records : (r.block n).records ≠ []) :
    r.stop = { r.becomeReady n with recording := false } := by
  simp only [Recorder.stop, active, List.isEmpty_iff, records, if_false]

theorem Recorder.flush_records (records : (r.block n).records ≠ []) : r.flush = r.handOver n := by
  simp only [Recorder.flush, active, List.isEmpty_iff, records, if_false]

end

/-- A block handed over becomes READY, and the other one ACTIVE where it is EMPTY (R141, R145). -/
theorem Recorder.handOver_eq (n : BlockName) (r : Recorder) : r.handOver n
    = if (r.block n.other).state = .empty then (r.becomeReady n).withBlock n.other ⟨.active, []⟩ else r.becomeReady n := by
  cases n <;> rfl

/-! ### READ RECORD BLOCK (R143, R147) -/

theorem readRecordBlock_served (s : State) (taking : s.taking) :
    exec .readRecordBlock s = .next (State.conclude 0x43#8 false (serveReadRecordBlock s)) :=
  unlessReset_arrive_taking .readRecordBlock s taking rfl

theorem Recorder.oldestReady_none (r : Recorder) (none' : r.anyReady = false) : r.oldestReady = none := by
  obtain ⟨a, b⟩ := Bool.or_eq_false_iff.1 none'
  unfold Recorder.oldestReady
  split
  case h_4 => rfl
  all_goals simp_all [BlockState.isReady]

theorem Recorder.oldestReady_eq (n : BlockName) (sequence : Byte) (r : Recorder) (ready : (r.block n).state = .ready sequence)
    (first : (r.block n.other).state.isReady = true → r.readyFirst = some n) : r.oldestReady = some (n, sequence) := by
  cases n
  · simp only [Recorder.block, BlockName.other] at ready first
    unfold Recorder.oldestReady
    cases other : r.blockB.state with
    | ready sequence' =>
      rw [other] at first
      simp only [ready, first rfl]
      rfl
    | _ => simp only [ready]
  · simp only [Recorder.block, BlockName.other] at ready first
    unfold Recorder.oldestReady
    cases other : r.blockA.state with
    | ready sequence' =>
      rw [other] at first
      simp only [ready, first rfl, if_true]
    | _ => simp only [ready]

end Sys2Proof.Machine
end

section
/-! PROOFS. The recovery (R139, R141, R143), and the four requests of the recorder settled. -/

namespace Sys2Proof.Machine

/-! ### A read block is freed (R147) -/

section
variable (n : BlockName) (r : Recorder)

/-- The recorder whose ready order is forgotten, as a read leaves it. -/
def Recorder.read : Recorder := { r with readyFirst := none }

theorem Recorder.read_block (m : BlockName) : r.read.block m = r.block m := by cases m <;> rfl

/-- With no recording, or another block ACTIVE, a freed block is EMPTY. -/
theorem Recorder.free_idle (idle : r.recording = false ∨ (r.block n.other).state = .active)
    (notActive : (r.block n).state ≠ .active) : r.free n = r.read.withBlock n ⟨.empty, []⟩ := by
  refine if_neg fun h => ?_
  obtain ⟨recording, none'⟩ := Bool.and_eq_true_iff.1 h
  obtain off | active := idle
  · exact absurd (off.symm.trans recording) nofun
  · have found : r.activeBlock = some n.other :=
      Recorder.activeBlock_of_active n.other r active (by rwa [BlockName.other_other])
    exact absurd ((congrArg Option.isNone found).symm.trans none') nofun

/-- A freed block becomes ACTIVE, and a loss before it is recovered (R143). -/
theorem Recorder.free_recording (recording : r.recording = true) (notActive : (r.block n).state ≠ .active)
    (other : (r.block n.other).state ≠ .active) : r.free n
      = if 0 < r.lostCount then (r.read.holding n []).recover else r.read.holding n [] := by
  have none' : r.activeBlock.isNone = true := congrArg Option.isNone (Recorder.activeBlock_of_neither n r notActive other)
  refine (if_pos (Bool.and_eq_true_iff.2 ⟨recording, none'⟩)).trans ?_
  cases n <;> rfl

end

/-! ### The recovery (R143) -/

section
variable (first : Time) (r r' : Recorder) (lost : r.firstLost = some first)
include lost

theorem Recorder.recover_written (written : r.writeTimed first (lostRecord r.lostCount) timedFuel = (r', true)) :
    r.recover = { r' with lostCount := 0, firstLost := none, recoveryPending := false } := by
  simp only [Recorder.recover, lost, written]

theorem Recorder.recover_cut (cut : r.writeTimed first (lostRecord r.lostCount) timedFuel = (r', false)) :
    r.recover = { r' with recoveryPending := true } := by
  simp only [Recorder.recover, lost, cut]

end

/-- The records of a recovery (R139, R143), written out. -/
theorem timedRecords_eq (rec : Byte → Record) (wait : Nat) : timedRecords rec wait
    = List.replicate (wait / 65535) ⟨4, 0xFF#8, 0xFF#8, 0⟩
      ++ (if 255 < wait % 65535 then [gapRecord (wait % 65535)] else [])
      ++ [rec (BitVec.ofNat 8 (timeDelta wait))] := by
  have most : gapRecord 65535 = ⟨4, 0xFF#8, 0xFF#8, 0⟩ := by decide
  simp only [timedRecords, timeGaps, List.map_append, List.map_replicate, most, apply_ite (List.map gapRecord), List.map_cons,
    List.map_nil]

theorem Recorder.holding_kept (n : BlockName) (l : List Record) (r : Recorder) : (r.holding n l).firstLost = r.firstLost
    ∧ (r.holding n l).lostCount = r.lostCount ∧ (r.holding n l).lastWritten = r.lastWritten := by
  cases n <;> exact ⟨rfl, rfl, rfl⟩

/-- The records of the recovery of the losses since a time. -/
def Recorder.recoveryRecords (first : Time) (r : Recorder) : List Record :=
  timedRecords (lostRecord r.lostCount) (ageOf first r.lastWritten)

/-- The recorder whose losses since a time are recovered. -/
def Recorder.recovered (first : Time) (r : Recorder) : Recorder :=
  { r with lastWritten := first, lostCount := 0, firstLost := none, recoveryPending := false }

section
variable (n : BlockName) (first : Time) (r : Recorder) (lost : r.firstLost = some first)
include lost

/-- A recovery whose records are all written. -/
theorem Recorder.recover_of_appendAll (r' : Recorder) (all : (r.holding n []).appendAll (r.recoveryRecords first) = some r')
    (few : (r.recoveryRecords first).length < 96) : (r.holding n []).recover = r'.recovered first := by
  obtain ⟨lost', count, stamp⟩ := r.holding_kept n []
  refine Recorder.recover_written first _ (r'.writtenAt first) (lost'.trans lost) ?_
  rw [count]
  refine Recorder.writeTimed_all _ _ _ ?_ ?_
  · rw [stamp]
    exact all
  · rw [stamp]
    exact few.le.trans (by decide)

/-- A recovery that fills its block while the other is READY, with records left over: it is pending, from the time that its
GAP records reached. -/
theorem Recorder.recover_pending (other : (r.block n.other).state.isReady = true)
    (many : 48 < (r.recoveryRecords first).length) : (r.holding n []).recover
      = { r.filled n ((r.recoveryRecords first).take 48) (some n.other) with
          recoveryPending := true
          lastWritten := r.lastWritten + BitVec.ofNat 32
            (min (ageOf first r.lastWritten - timeDelta (ageOf first r.lastWritten)) (65535 * 48)) } := by
  have inside : 48 ≤ (timeGaps (ageOf first r.lastWritten)).length := by
    rw [Recorder.recoveryRecords, length_timedRecords] at many
    omega
  have front : (r.recoveryRecords first).take 48 = ((timeGaps (ageOf first r.lastWritten)).take 48).map gapRecord := by
    rw [Recorder.recoveryRecords, timedRecords, List.take_append_of_le_length (by rwa [List.length_map]), List.map_take]
  have length : ((r.recoveryRecords first).take 48).length = 48 := List.length_take_of_le many.le
  have fills : (r.holding n []).appendAll ((r.recoveryRecords first).take 48) = some _ :=
    Recorder.appendAll_last n r [] _ other (by decide) (by rw [length]; rfl)
  have full : (r.filled n ((r.recoveryRecords first).take 48) (some n.other)).activeBlock = none := by
    refine Recorder.activeBlock_of_neither n _ ?_ ?_
    · rw [Recorder.filled_block]
      exact nofun
    · rw [Recorder.filled_other]
      exact fun active => by rw [active] at other; cases other
  obtain ⟨lost', count, stamp⟩ := r.holding_kept n []
  have cut := Recorder.writeTimed_cut (time := first) (rec := lostRecord r.lostCount) 48 timedFuel (r.holding n []) _
    ?_ full ?_ (by decide)
  · refine (Recorder.recover_cut first _ _ (lost'.trans lost) (count ▸ cut)).trans ?_
    rw [stamp]
    rfl
  · rw [stamp, ← front]
    exact fills
  · rwa [stamp]

end

/-! ### The obligation -/

/-- READ RECORD BLOCK of the oldest READY block: its bytes are given, and it is freed (R147). -/
theorem readRecordBlock_given (n : BlockName) (sequence : Byte) (s : State) (taking : s.taking)
    (ready : (s.recorder.block n).state = .ready sequence)
    (first : (s.recorder.block n.other).state.isReady = true → s.recorder.readyFirst = some n) :
    exec .readRecordBlock s = .next (State.replying 0x43#8 .ok
      ((if n = .a then 0 else 1) :: sequence :: u8 (s.recorder.block n).records.length
        ++ (s.recorder.block n).records.flatMap Record.bytes)
      { s with recorder := s.recorder.free n }) := by
  rw [readRecordBlock_served s taking, serveReadRecordBlock, Recorder.oldestReady_eq n sequence _ ready first]
  cases n <;> rfl

/-- Settles O47: each request by the blocks it finds, and a freed block by what was lost before it. -/
theorem recorderRequestsMoveTheBlocks : Obligations.RecorderRequestsMoveTheBlocks := by
  intro s taking r v readied next started opening
  refine ⟨fun mask => ⟨fun unknown => ?_, fun least most busy => ?_⟩, fun off noneReady => ⟨?_, ?_, ?_⟩, fun off => ⟨?_, ?_⟩,
    fun on noA noB => ?_, fun n on active other => ?_, fun noneReady => ?_, fun n sequence ready order => ?_⟩
  · rw [recordStart_served mask s taking, serveRecordStart, maskOf_unknown (unknown.imp_left (congrArg BitVec.toNat))]
    rfl
  · obtain ⟨m, known⟩ := maskOf_known least most
    rw [recordStart_served mask s taking, serveRecordStart, known]
    exact congrArg _ (congrArg (State.conclude _ _) (if_pos (Bool.or_eq_true_iff.2 busy)))
  · rw [recordStart_accepted 1 .live s taking rfl off noneReady, State.offerOpening_live .live s rfl]
    rfl
  · rw [recordStart_accepted 2 .playback s taking rfl off noneReady, State.offerOpening_playback]
    rfl
  · rw [recordStart_accepted 3 .both s taking rfl off noneReady, State.offerOpening_live .both s rfl]
    rfl
  · rw [recordStop_served s taking, serveRecordStop, if_neg (Bool.eq_false_iff.1 off)]
    rfl
  · rw [recordFlush_served s taking, serveRecordFlush, if_neg (Bool.eq_false_iff.1 off)]
    rfl
  · have none' := Recorder.activeBlock_of_neither .a r noA noB
    rw [recordStop_recording s taking on, recordFlush_recording s taking on, Recorder.stop_none _ none',
      Recorder.flush_none _ none']
    exact ⟨rfl, rfl⟩
  · have found := Recorder.activeBlock_of_active n r active other
    rw [recordStop_recording s taking on, recordFlush_recording s taking on]
    refine ⟨fun blank => ?_, fun records => ?_⟩
    · rw [Recorder.stop_blank n _ found blank, Recorder.flush_blank n _ found blank]
      exact ⟨rfl, rfl⟩
    · rw [Recorder.stop_records n _ found records, Recorder.flush_records n _ found records, Recorder.handOver_eq]
      cases n <;> exact ⟨rfl, rfl⟩
  · rw [readRecordBlock_served s taking, serveReadRecordBlock, Recorder.oldestReady_none r noneReady]
    rfl
  intro given read
  have freed {q : Recorder} (h : r.free n = q) : exec .readRecordBlock s = next 0x43#8 given q :=
    h ▸ readRecordBlock_given n sequence s taking ready order
  have notActive : (r.block n).state ≠ .active := fun h => nomatch ready.symm.trans h
  refine ⟨fun idle => ?_, fun on other none' => ?_, fun first on other some' lost => ?_⟩
  · refine freed ((r.free_idle n idle notActive).trans ?_)
    cases n <;> rfl
  · refine freed ((r.free_recording n on notActive other).trans ((if_neg (by omega)).trans ?_))
    cases n <;> rfl
  have recovers : r.free n = (r.read.holding n []).recover :=
    (r.free_recording n on notActive other).trans (if_pos some')
  intro wait rest delta written recovered filled
  have records : r.read.recoveryRecords first = written := timedRecords_eq ..
  have notActive' : (r.read.block n.other).state ≠ .active := by rwa [Recorder.read_block]
  have written_all (q : Recorder) (all : (r.read.holding n []).appendAll written = some q) (few : written.length < 96) :
      exec .readRecordBlock s = next 0x43#8 given (recovered q) :=
    freed (recovers.trans (Recorder.recover_of_appendAll n first r.read lost q (records ▸ all) (records ▸ few)))
  refine ⟨fun fits => ?_, fun empty least most => ?_, fun second => ⟨fun fills => ?_, fun many => ?_⟩⟩
  · refine (written_all _ (Recorder.appendAll_fits notActive' [] written (by simpa using fits)) (by omega)).trans ?_
    cases n <;> rfl
  · refine (written_all _ (Recorder.appendAll_goesOn n r.read [] written (by rwa [Recorder.read_block]) (by decide)
      (by simpa using least) (by simpa using most)) most).trans ?_
    cases n <;> rfl
  · have whole : written.take 48 = written := List.take_of_length_le fills.le
    refine (written_all _ (Recorder.appendAll_last n r.read [] written (by rwa [Recorder.read_block]) (by decide)
      (by simpa using fills)) (by omega)).trans ?_
    rw [← whole]
    cases n <;> rfl
  · refine freed (recovers.trans ((Recorder.recover_pending n first r.read lost (by rwa [Recorder.read_block])
      (records ▸ many)).trans ?_))
    rw [records]
    cases n <;> rfl

end Sys2Proof.Machine
end

section
/-! PROOFS. The Rail Controller's invariant (R55, R56, R58, R66 to R68, R73): its parts, and what each change of the rail leaves
of it. -/

namespace Sys2Proof.Machine

/-! ### The rail's part and the guard's part -/

/-- The duties and the travel limit keep their ranges (R55, R75, R79). -/
def Rail.rangesOk (r : Rail) : Prop :=
  (30 ≤ r.moveDuty ∧ r.moveDuty ≤ 100) ∧ (30 ≤ r.travelDuty ∧ r.travelDuty ≤ 100)
    ∧ (200 ≤ r.travelLimit ∧ r.travelLimit ≤ 3000)

/-- The invariant but for the guard's clause: what the rail holds by its state alone. -/
structure Rail.ok (r : Rail) : Prop where
  drive : r.drive = r.drivesTo.map fun e => ⟨e, r.dutyNow⟩
  timer : r.moveTimer.isSome ↔ r.drivesTo.isSome
  origin : r.originOk
  attempts : r.attemptsOk
  ranges : r.rangesOk

/-- The guard's clause (R58): a part not held in reset is in FAULT while the guard is asserted. -/
def State.guardOk (s : State) : Prop :=
  s.inReset = false → s.rail.guardLow = true → ∃ reason, s.rail.state = .fault reason

theorem State.railOk_iff (s : State) : s.railOk ↔ s.rail.ok ∧ s.guardOk := by
  constructor
  · rintro ⟨drive, timer, guard, origin, attempts, ranges⟩
    exact ⟨⟨drive, timer, origin, attempts, ranges⟩, guard⟩
  · rintro ⟨⟨drive, timer, origin, attempts, ranges⟩, guard⟩
    exact ⟨drive, timer, guard, origin, attempts, ranges⟩

/-- The rail read with its state written out, so that each part of the invariant is that of the state. -/
theorem Rail.ok.at {r : Rail} (ok : r.ok) {st : RailState} (is : r.state = st) : ({ r with state := st } : Rail).ok := by
  subst is
  exact ok

/-- A rail in a state that does not drive. -/
theorem Rail.ok_off {r : Rail} (off : r.drivesTo = none) (drive : r.drive = none) (timer : r.moveTimer = none)
    (origin : r.originOk) (attempts : r.attemptsOk) (ranges : r.rangesOk) : r.ok :=
  ⟨by rw [drive, off]; rfl, by simp only [timer, off, Option.isSome_none], origin, attempts, ranges⟩

/-- A rail that drives to an end. -/
theorem Rail.ok_on {r : Rail} (e : RailEnd) (on : r.drivesTo = some e) (drive : r.drive = some ⟨e, r.dutyNow⟩)
    (timer : r.moveTimer.isSome = true) (origin : r.originOk) (attempts : r.attemptsOk) (ranges : r.rangesOk) : r.ok :=
  ⟨by rw [drive, on]; rfl, by simp only [timer, on, Option.isSome_some], origin, attempts, ranges⟩

/-- Rest in a state that needs no origin and is none of a move: an end, FAULT, or HOMING that waits. -/
theorem Rail.rest_ok {r : Rail} (few : r.attempts ≤ 3) (ranges : r.rangesOk) :
    (∀ e, (r.rest (restingAt e)).ok) ∧ (∀ reason, (r.rest (.fault reason)).ok) ∧ (r.rest (.homing .waiting)).ok :=
  ⟨fun e => by cases e <;> exact ok_off rfl rfl rfl trivial few ranges, fun _ => ok_off rfl rfl rfl trivial few ranges,
    ok_off rfl rfl rfl trivial few ranges⟩

/-- In every state at most three collisions lie behind (R66, R67). -/
theorem Rail.ok.few {r : Rail} (ok : r.ok) : r.attempts ≤ 3 := by
  have attempts := ok.attempts
  unfold Rail.attemptsOk at attempts
  split at attempts <;> omega

/-- The switches' filters and the guard's pin have no part in it. -/
theorem Rail.ok.sensed {r : Rail} (ok : r.ok) (o c : ScanFilter) (low : Bool) :
    ({ r with switchOpen := o, switchClosed := c, guardLow := low } : Rail).ok :=
  ⟨ok.drive, ok.timer, ok.origin, ok.attempts, ok.ranges⟩

theorem Rail.ok.onSwitch {r : Rail} (ok : r.ok) (e : RailEnd) (f : ScanFilter → ScanFilter) : (r.onSwitch e f).ok := by
  cases e
  · exact ok.sensed (f r.switchOpen) r.switchClosed r.guardLow
  · exact ok.sensed r.switchOpen (f r.switchClosed) r.guardLow

theorem Rail.onSwitch_guard (e : RailEnd) (f : ScanFilter → ScanFilter) (r : Rail) :
    (r.onSwitch e f).guardLow = r.guardLow ∧ (r.onSwitch e f).state = r.state := by
  cases e <;> exact ⟨rfl, rfl⟩

/-- The limit of two measured times is in its range (R75). -/
theorem limitOf_range (closing opening : Nat) : 200 ≤ limitOf closing opening ∧ limitOf closing opening ≤ 3000 :=
  clamp_bounds (by decide)

theorem Rail.reset_ok : Rail.reset.ok := 
  Rail.ok_off rfl rfl rfl trivial (Nat.zero_le 3) (by unfold Rail.rangesOk; decide)

/-! ### Work that leaves the rail alone -/

/-- The Rail Controller's invariant is kept from one state to another. -/
def KeepsRail (s t : State) : Prop := s.railOk → t.railOk

theorem KeepsRail.trans {s t u : State} (h : KeepsRail s t) (g : KeepsRail t u) : KeepsRail s u := g ∘ h

/-- Only the rail and the reset stand in the invariant. -/
theorem KeepsRail.of_eq {s t : State} (rail : t.rail = s.rail) (reset : t.inReset = s.inReset) : KeepsRail s t := by
  unfold KeepsRail State.railOk
  rw [rail, reset]
  exact id

theorem State.onTouch_keepsRail (f : TouchUnit → TouchUnit) (s : State) : KeepsRail s (s.onTouch f) :=
  .of_eq (s.onTouch_rail f) (s.onTouch_inReset f)

theorem State.onScanner_keepsRail (f : Scanner → Scanner) (s : State) : KeepsRail s (s.onScanner f) :=
  .of_eq (s.onScanner_rail f) (s.onScanner_inReset f)

theorem State.onVoice_keepsRail (f : VoiceEngine → VoiceEngine) (s : State) : KeepsRail s (s.onVoice f) :=
  .of_eq (s.onVoice_rail f) (s.onVoice_inReset f)

theorem LinkWork.keepsRail {s t : State} (h : LinkWork s t) : KeepsRail s t := by
  obtain ⟨n, slot, rfl⟩ := h
  exact .of_eq rfl rfl

theorem PlayWork.keepsRail {s t : State} (h : PlayWork s t) : KeepsRail s t := by
  obtain ⟨p, d, r, v, n, k, rfl, -⟩ := h
  exact .of_eq rfl rfl

theorem WaveWork.keepsRail {s t : State} (h : WaveWork s t) : KeepsRail s t := by
  obtain ⟨v, w, rfl⟩ := h
  exact .of_eq rfl rfl

theorem PedalWork.keepsRail {s t : State} (h : PedalWork s t) : KeepsRail s t := by
  obtain ⟨d, r, n, rfl⟩ := h
  exact .of_eq rfl rfl

theorem State.foldl_keepsRail {α : Type} (f : State → α → State) (keeps : ∀ s a, KeepsRail s (f s a)) (l : List α)
    (s : State) : KeepsRail s (l.foldl f s) := by
  induction l generalizing s with
  | nil => exact id
  | cons a l ih => exact (keeps s a).trans (ih (f s a))

/-! ### The rail's own work -/

/-- Out of FAULT the guard is released, and a change of the rail that leaves its pin keeps the guard's clause. -/
theorem State.onRail_keepsRail (f : Rail → Rail) (s : State) {st : RailState} (is : s.rail.state = st)
    (running : ∀ reason, st ≠ .fault reason) (pin : (f s.rail).guardLow = s.rail.guardLow)
    (keeps : ({ s.rail with state := st } : Rail).ok → (f s.rail).ok) : KeepsRail s (s.onRail f) := by
  simp only [KeepsRail, State.railOk_iff]
  rintro ⟨ok, guard⟩
  refine ⟨keeps (ok.at is), fun on low => ?_⟩
  obtain ⟨reason, faulted⟩ := guard on (pin ▸ low)
  exact absurd (is ▸ faulted) (running reason)

/-- Entry to FAULT meets the guard's clause, whatever the pin (R58, R71). -/
theorem State.railFaults_ok (reason : FaultReason) (s : State) (ok : s.rail.ok) : (s.railFaults reason).railOk := by
  have faulted : (s.onRail (Rail.rest (.fault reason))).railOk :=
    (State.railOk_iff _).2 ⟨(Rail.rest_ok ok.few ok.ranges).2.1 reason, fun _ _ => ⟨reason, rfl⟩⟩
  unfold State.railFaults
  split
  · rename_i before is
    exact s.railOk_iff.2 ⟨ok, fun _ _ => ⟨before, is⟩⟩
  · exact (State.endOperation_frame _ _ _).keepsRail faulted
  · exact faulted

theorem State.railFaults_keepsRail (reason : FaultReason) (s : State) : KeepsRail s (s.railFaults reason) :=
  fun ok => s.railFaults_ok reason (s.railOk_iff.1 ok).1

/-- The grant starts the drive that each waiting state asks for (R56, R63). -/
theorem State.quietGrant_keepsRail (s : State) : KeepsRail s s.quietGrant := by
  unfold State.quietGrant
  split
  · split
    case h_1 is =>
      exact s.onRail_keepsRail _ is nofun rfl fun ok => Rail.ok_on s.rail.target rfl rfl rfl ok.origin ok.attempts
        ⟨ok.ranges.2.1, ok.ranges.2.1, ok.ranges.2.2⟩
    case h_2 is => exact s.onRail_keepsRail _ is nofun rfl fun ok => Rail.ok_on .opened rfl rfl rfl trivial ok.few ok.ranges
    case h_3 is => exact s.onRail_keepsRail _ is nofun rfl fun ok => Rail.ok_on .closed rfl rfl rfl ok.origin ok.few ok.ranges
    case h_4 is => exact s.onRail_keepsRail _ is nofun rfl fun ok => Rail.ok_on .opened rfl rfl rfl ok.origin ok.few ok.ranges
    case h_5 => exact id
  · exact id

/-- Entry to HOMING meets the invariant from any rail whose numbers are in range (R58, R59): the guard sends it to FAULT. -/
theorem State.enterHoming_ok (s : State) (ranges : s.rail.rangesOk) : s.enterHoming.railOk := by
  unfold State.enterHoming
  extract_lets t
  have ok : t.rail.ok := Rail.ok_off rfl rfl rfl trivial (Nat.zero_le 3) ranges
  split
  · exact t.railFaults_ok _ ok
  · rename_i released
    have homed : t.railOk := t.railOk_iff.2 ⟨ok, fun _ low => absurd low released⟩
    split
    · exact t.railFaults_ok _ ok
    · split
      · exact t.onRail_keepsRail (st := .homing .waiting) (Rail.rest .opened) rfl nofun rfl
          (fun ok => (Rail.rest_ok ok.few ok.ranges).1 .opened) homed
      · exact t.quietGrant_keepsRail homed

/-- A collision turns a move back to its origin, homing back to its wait, and a calibration back to OPEN (R60, R66, R76). -/
theorem State.g2Report_keepsRail (s : State) : KeepsRail s s.g2Report := by
  unfold State.g2Report
  split
  case h_1 is =>
    refine s.onRail_keepsRail _ is nofun rfl fun ok => ?_
    obtain ⟨o, origin⟩ := Option.isSome_iff_exists.1 ok.origin
    have back : s.rail.origin = some (s.rail.origin.getD .opened) := by rw [origin]; rfl
    exact Rail.ok_on _ back rfl rfl ok.origin (Nat.succ_le_succ ok.attempts) ok.ranges
  case h_2 is => exact s.onRail_keepsRail _ is nofun rfl fun ok => (Rail.rest_ok ok.few ok.ranges).2.2
  case h_3 is =>
    refine KeepsRail.trans ?_ (State.endOperation_frame _ _ _).keepsRail
    exact s.onRail_keepsRail _ is nofun rfl fun ok => Rail.ok_on .opened rfl rfl rfl rfl ok.few ok.ranges
  case h_4 is =>
    refine KeepsRail.trans ?_ (State.endOperation_frame _ _ _).keepsRail
    exact s.onRail_keepsRail _ is nofun rfl fun ok => Rail.ok_on .opened rfl rfl rfl rfl ok.few ok.ranges
  case h_5 => exact id

theorem State.calibrationCompletes_keepsRail (s : State) (is : s.rail.state = .calibrating .opening) :
    KeepsRail s s.calibrationCompletes := by
  refine KeepsRail.trans ?_ (State.endOperation_frame _ _ _).keepsRail
  exact s.onRail_keepsRail _ is nofun rfl fun ok => Rail.ok_off rfl rfl rfl trivial ok.few
    ⟨ok.ranges.1, ok.ranges.2.1, limitOf_range _ _⟩

theorem State.restsAt_keepsRail (e : RailEnd) (s : State) {st : RailState} (is : s.rail.state = st)
    (running : ∀ reason, st ≠ .fault reason) : KeepsRail s (s.onRail (Rail.rest (restingAt e))) :=
  s.onRail_keepsRail _ is running rfl fun ok => (Rail.rest_ok ok.few ok.ranges).1 e

/-- An arrival rests the rail, moves it on to its next leg or sends it to FAULT; a retry has at most two collisions behind
it (R60, R65, R67, R69, R74). -/
theorem State.railArrives_keepsRail (e : RailEnd) (s : State) : KeepsRail s (s.railArrives e) := by
  unfold State.railArrives
  split
  · exact id
  split
  · exact s.railFaults_keepsRail _
  split
  case h_1 is => exact s.restsAt_keepsRail .opened is nofun
  case h_2 is =>
    split
    · exact s.restsAt_keepsRail _ is nofun
    · exact id
  case h_3 is =>
    split
    · split
      · rename_i few
        refine KeepsRail.trans ?_ (State.quietGrant_keepsRail _)
        exact s.onRail_keepsRail _ is nofun rfl fun ok =>
          Rail.ok_off rfl rfl rfl ok.origin (Nat.le_of_lt_succ few) ok.ranges
      · exact s.restsAt_keepsRail _ is nofun
    · exact id
  case h_4 is => exact s.restsAt_keepsRail .opened is nofun
  case h_5 is =>
    refine KeepsRail.trans ?_ (State.quietGrant_keepsRail _)
    exact s.onRail_keepsRail _ is nofun rfl fun ok => Rail.ok_off rfl rfl rfl ok.origin ok.few ok.ranges
  case h_6 is => exact s.calibrationCompletes_keepsRail is
  case h_7 => exact id

theorem State.railDeparts_keepsRail (e : RailEnd) (s : State) : KeepsRail s (s.railDeparts e) := by
  unfold State.railDeparts
  split
  · exact s.railFaults_keepsRail _
  · exact id

/-- A filter's turn is no change of the rail's state. -/
theorem State.onSwitch_keepsRail (e : RailEnd) (f : ScanFilter → ScanFilter) (s : State) :
    KeepsRail s (s.onRail (Rail.onSwitch e f)) := by
  obtain ⟨pin, same⟩ := Rail.onSwitch_guard e f s.rail
  simp only [KeepsRail, State.railOk_iff, State.guardOk, State.onRail_rail, State.onRail_inReset, pin, same]
  exact And.imp_left fun ok => ok.onSwitch e f

theorem State.takeSwitch_keepsRail (e : RailEnd) (s : State) : KeepsRail s (s.takeSwitch e) := by
  unfold State.takeSwitch
  split
  · unfold State.confirmSwitch
    extract_lets t
    have turned : KeepsRail s t := s.onSwitch_keepsRail e _
    split
    · exact turned.trans (t.railArrives_keepsRail e)
    · exact turned.trans (t.railDeparts_keepsRail e)
  · exact id

theorem State.takeMoveTimer_keepsRail (s : State) : KeepsRail s s.takeMoveTimer := by
  unfold State.takeMoveTimer
  split
  · exact s.railFaults_keepsRail _
  · exact id

end Sys2Proof.Machine
end

section
/-! PROOFS. What the dispatcher and the receiver keep (R177 to R181): any invariant that the Control Link has no part in and
that every served request keeps. -/

namespace Sys2Proof.Machine

/-- An invariant of the part that no change of the Control Link touches, and that every served request keeps. -/
structure LinkFree (I : State → Prop) : Prop where
  link : ∀ f s, I s → I (State.onLink f s)
  serve : ∀ r s, I s → I (serveRequest r s).after

namespace LinkFree

variable {I : State → Prop} (free : LinkFree I)
include free

theorem conclude (kind : Byte) (thenReset : Bool) (v : Served) (ok : I v.after) : I (State.conclude kind thenReset v) := by
  cases v with
  | reply status payload s =>
    exact free.link (fun l => { l with dispatcher := .sending ⟨kind, status, payload⟩ thenReset }) s ok
  | waiting s => exact free.link (fun l => { l with dispatcher := .serving }) s ok

theorem raise (n : Notice) (s : State) (ok : I s) : I (s.raise n) :=
  free.link (fun l => { l with pendingSet := l.pendingSet ||| n.bit }) s ok

theorem takeRequest (r : Request) (s : State) (ok : I s) : I (s.takeRequest r) := by
  unfold State.takeRequest
  split
  · exact free.conclude _ _ _ (free.serve r s ok)
  · exact free.link _ s ok

theorem takeBody (body : List Byte) (s : State) (ok : I s) : I (s.takeBody body) := by
  unfold State.takeBody
  split
  · exact free.link _ s ok
  · exact free.link _ s ok
  · exact free.takeRequest _ s ok

theorem pump (s : State) (ok : I s) : I s.pump := by
  unfold State.pump
  split
  · exact free.takeBody _ _ (free.link _ s ok)
  · exact ok

theorem offerBody (body : List Byte) (s : State) (ok : I s) : I (s.offerBody body) := by
  unfold State.offerBody
  split
  · exact free.pump _ (free.link _ s ok)
  · exact free.raise _ _ (free.link _ s ok)

theorem arrive (r : Request) (s : State) (ok : I s) : I (s.arrive r) := by
  unfold State.arrive
  split
  · exact free.takeRequest r s ok
  · exact free.offerBody _ s ok

theorem arriveBody (kind : Byte) (payload : List Byte) (s : State) (ok : I s) : I (s.arriveBody kind payload) := by
  unfold State.arriveBody
  split
  · exact free.takeBody _ s ok
  · exact free.offerBody _ s ok

theorem framingError (s : State) (ok : I s) : I s.framingError :=
  free.raise .linkError _ (free.link _ s ok)

theorem takeInterByte (s : State) (ok : I s) : I s.takeInterByte := by
  unfold State.takeInterByte
  split
  · exact free.framingError s ok
  · exact ok

theorem brokenByte (s : State) (ok : I s) : I s.brokenByte := by
  unfold State.brokenByte
  split
  · exact ok
  · exact free.framingError s ok

theorem takeByte (b : Byte) (s : State) (ok : I s) : I (s.takeByte b) := by
  unfold State.takeByte
  split
  · split
    · exact free.link _ s ok
    · exact ok
  · split
    · exact free.framingError s ok
    · exact free.link _ s ok
  · exact free.link _ s ok
  · unfold State.frameComplete
    extract_lets t
    have hunting : I t := free.link _ s ok
    split
    · exact free.offerBody _ t hunting
    · exact free.raise _ _ (free.link _ t hunting)

/-- The last byte of a reply frees the dispatcher, or begins the part reset (R180, R193). -/
theorem replySent (reset : ∀ pins s, I s → I (State.partReset pins s)) (pins : Pins) (s : State) (ok : I s) :
    I (s.replySent pins) := by
  unfold State.replySent
  split
  · exact reset pins s ok
  · exact free.pump _ (free.link _ s ok)
  · exact ok

end LinkFree

end Sys2Proof.Machine
end

section
/-! PROOFS. Every request keeps the Rail Controller's invariant: those of the rail (R61, R72, R79), the calibration's beginning
and its abort (R73, R78), and those that leave the rail alone. -/

namespace Sys2Proof.Machine

/-! ### Requests of the rail -/

/-- A move is set up at an end (R61): it waits for the grant, from its origin and with no collision behind it. -/
theorem State.setUpMove_keepsRail (target origin : RailEnd) (s : State) {st : RailState} (is : s.rail.state = st)
    (running : ∀ reason, st ≠ .fault reason) : KeepsRail s (s.setUpMove target origin) := by
  refine KeepsRail.trans ?_ (State.quietGrant_keepsRail _)
  exact s.onRail_keepsRail _ is running rfl fun ok => Rail.ok_off rfl rfl rfl rfl (Nat.zero_le 2) ok.ranges

theorem serveSetRailMode_keepsRail (code : Byte) (s : State) : KeepsRail s (serveSetRailMode code s).after := by
  unfold serveSetRailMode
  split
  · exact id
  · split
    case h_2 is _ => exact s.setUpMove_keepsRail _ _ is nofun
    case h_4 is _ => exact s.setUpMove_keepsRail _ _ is nofun
    case h_5 is _ =>
      split
      · exact id
      · exact s.restsAt_keepsRail _ is nofun
    all_goals exact id

theorem serveClearRailFault_keepsRail (s : State) : KeepsRail s (serveClearRailFault s).after := by
  unfold serveClearRailFault
  split
  · split
    · exact id
    · exact fun ok => s.enterHoming_ok (s.railOk_iff.1 ok).1.ranges
  · exact id

/-- The travel duty is written alone; the move duty stays that of the drive (R79). -/
theorem serveSetRailDrive_keepsRail (duty : Byte) (s : State) : KeepsRail s (serveSetRailDrive duty s).after := by
  unfold serveSetRailDrive
  split
  · rename_i range
    simp only [KeepsRail, State.railOk_iff]
    rintro ⟨⟨drive, timer, origin, attempts, move, -, limit⟩, guard⟩
    exact ⟨⟨drive, timer, origin, attempts, move, range, limit⟩, guard⟩
  · exact id

/-! ### Operations -/

theorem State.beginCalibration_keepsRail (s : State) {st : RailState} (is : s.rail.state = st)
    (running : ∀ reason, st ≠ .fault reason) : KeepsRail s s.beginCalibration := by
  refine KeepsRail.trans ?_ (State.quietGrant_keepsRail _)
  exact s.onRail_keepsRail _ is running rfl fun ok => Rail.ok_off rfl rfl rfl rfl (Nat.zero_le 3)
    ⟨ok.ranges.2.1, ok.ranges.2.1, ok.ranges.2.2⟩

/-- RAIL CALIBRATE is accepted in OPEN alone (R73). -/
theorem RailState.refusesCalibrate_none {st : RailState} (accepted : st.refusesCalibrate = none) : st = .opened := by
  cases st <;> cases accepted
  rfl

/-- An operation begins in its owning block, and RAIL CALIBRATE in OPEN. -/
theorem State.startOperation_keepsRail (op : Operation) (s : State) (rests : op = .railCalibrate → s.rail.state = .opened) :
    KeepsRail s (s.startOperation op) := by
  have begun : KeepsRail s (s.beginOperation op) := .of_eq rfl rfl
  cases op with
  | startup => exact begun.trans (State.beginLoad_wave _).keepsRail
  | loadZones => exact begun.trans (State.beginLoad_wave _).keepsRail
  | learnRest => exact begun.trans (.of_eq rfl rfl)
  | railCalibrate => exact begun.trans (State.beginCalibration_keepsRail _ (rests rfl) nofun)

theorem serveStartOperation_keepsRail (code : Byte) (s : State) : KeepsRail s (serveStartOperation code s).after := by
  unfold serveStartOperation
  split
  · exact id
  · split
    · exact id
    · split
      · exact id
      · rename_i accepted
        refine s.startOperation_keepsRail _ fun calibrate => RailState.refusesCalibrate_none ?_
        exact Option.eq_none_iff_forall_ne_some.2 fun status => accepted status calibrate

/-- An aborted calibration rests at OPEN, returns to it, or waits to move to it (R78). -/
theorem State.abortCalibration_keepsRail (s : State) : KeepsRail s s.abortCalibration := by
  unfold State.abortCalibration
  split
  case h_1 is => exact s.restsAt_keepsRail .opened is nofun
  case h_2 is =>
    exact s.onRail_keepsRail _ is nofun rfl fun ok => Rail.ok_on .opened ok.origin rfl rfl ok.origin ok.few ok.ranges
  case h_3 is =>
    refine KeepsRail.trans ?_ (State.quietGrant_keepsRail _)
    exact s.onRail_keepsRail _ is nofun rfl fun ok => Rail.ok_off rfl rfl rfl rfl (Nat.zero_le 2) ok.ranges
  case h_4 is =>
    exact s.onRail_keepsRail _ is nofun rfl fun ok =>
      Rail.ok_on .opened ok.origin ok.drive (ok.timer.2 rfl) ok.origin ok.few ok.ranges
  case h_5 => exact id

theorem State.abortOperation_keepsRail (op : Operation) (s : State) : KeepsRail s (s.abortOperation op) := by
  cases op with
  | loadZones => exact s.abortLoad_wave.keepsRail.trans (State.endOperation_frame _ _ _).keepsRail
  | learnRest => exact KeepsRail.trans (t := s.abortLearning) (.of_eq rfl rfl) (State.endOperation_frame _ _ _).keepsRail
  | railCalibrate => exact s.abortCalibration_keepsRail.trans (State.endOperation_frame _ _ _).keepsRail
  | startup =>
    simp only [State.abortOperation]
    refine KeepsRail.trans ?_ (State.endOperation_frame _ _ _).keepsRail
    split
    · exact s.abortLoad_wave.keepsRail
    · exact .of_eq rfl rfl

theorem serveAbortOperation_keepsRail (s : State) : KeepsRail s (serveAbortOperation s).after := by
  unfold serveAbortOperation
  split
  · exact s.abortOperation_keepsRail _
  · exact id

/-! ### Requests that leave the rail alone -/

theorem serveRecordStart_play (mask : Byte) (s : State) : PlayWork s (serveRecordStart mask s).after := by
  unfold serveRecordStart
  split
  · exact .refl s
  · split
    · exact .refl s
    · exact (s.onRecorder_work _).trans (State.offerOpening_play _)

theorem servePlayStart_play (segment : Byte) (s : State) : PlayWork s (servePlayStart segment s).after := by
  unfold servePlayStart
  split
  · exact .refl s
  · split
    · exact s.startPlay_play _
    · exact .refl s

theorem servePlayResume_play (s : State) : PlayWork s (servePlayResume s).after := by
  unfold servePlayResume
  split
  · exact (s.onPlayer_work (fun p => { p with state := .running }) rfl rfl rfl rfl).trans (State.reloadTempo_play _)
  · exact s.onPlayer_work (fun p => { p with state := .waiting }) rfl rfl rfl rfl
  · exact .refl s

theorem servePlayStop_play (s : State) : PlayWork s (servePlayStop s).after := by
  unfold servePlayStop
  split
  case h_5 => exact .refl s
  all_goals exact s.playbackClearing_play.trans (State.onPlayer_work (fun p => { p with state := .idle }) _ rfl rfl rfl rfl)

theorem serveReadWaveStore_wave (address : Long) (count : Byte) (s : State) :
    WaveWork s (serveReadWaveStore address count s).after := by
  unfold serveReadWaveStore
  split
  · exact (s.onWave_work _).trans (State.arbitrate_wave _)
  · exact .refl s

theorem serveSetRegulation_keepsRail (first count : Byte) (entries : List RegFields) (s : State) :
    KeepsRail s (serveSetRegulation first count entries s).after := by
  unfold serveSetRegulation
  split
  · split
    · simp only [Served.ok, Served.after]
      exact s.onTouch_keepsRail _
    · exact id
  · exact id

theorem serveGetKeyCounters_keepsRail (first count : Byte) (s : State) :
    KeepsRail s (serveGetKeyCounters first count s).after := by
  unfold serveGetKeyCounters
  split
  · simp only [Served.give, Served.after]
    exact s.onScanner_keepsRail _
  · exact id

/-- Every request keeps the Rail Controller's invariant: all but five leave the rail alone. -/
theorem serveRequest_keepsRail (r : Request) (s : State) : KeepsRail s (serveRequest r s).after := by
  cases r with
  | setRailMode code => exact serveSetRailMode_keepsRail code s
  | clearRailFault => exact serveClearRailFault_keepsRail s
  | setRailDrive duty => exact serveSetRailDrive_keepsRail duty s
  | startOperation code => exact serveStartOperation_keepsRail code s
  | abortOperation => exact serveAbortOperation_keepsRail s
  | setRegulation first count entries => exact serveSetRegulation_keepsRail first count entries s
  | getKeyCounters first count => exact serveGetKeyCounters_keepsRail first count s
  | recordStart mask => exact (serveRecordStart_play mask s).keepsRail
  | readWaveStore address count => exact (serveReadWaveStore_wave address count s).keepsRail
  | playStart segment => exact (servePlayStart_play segment s).keepsRail
  | playResume => exact (servePlayResume_play s).keepsRail
  | playStop => exact (servePlayStop_play s).keepsRail
  | _ =>
    simp only [serveRequest, serveGetIdentity, serveGetStatus, serveResetPart, serveReadNotices, serveClearNotices,
      serveSetNoticeMask, serveGetOperationResult, serveGetKeyState, serveGetRegulation, serveSetTouchCurve,
      serveGetTouchCurve, serveGetPedalState, serveSetPedalMap, serveGetRailState, serveSetSoundOptions,
      serveGetVoiceState, serveGetZone, serveSetOutputGain, serveSetRoute, serveGetOutput, serveRecordStop,
      serveRecordFlush, serveReadRecordBlock, serveWritePassage, serveReadPassage, serveWriteSegment,
      serveReadSegment, serveSetSplit, serveSetMasterTempo, servePlayPause, servePlayReset, serveGetPlayStatus]
    repeat' split
    all_goals exact .of_eq rfl rfl

/-- The Control Link has no part in the Rail Controller's invariant. -/
theorem railOk_linkFree : LinkFree State.railOk := ⟨fun _ _ => id, serveRequest_keepsRail⟩

end Sys2Proof.Machine
end

section
/-! PROOFS. Every event and so every step keeps the Rail Controller's invariant. -/

namespace Sys2Proof.Machine

/-! ### Part reset (R59, R193) -/

theorem State.partReset_railOk (pins : Pins) (s : State) : (s.partReset pins).railOk :=
  State.enterHoming_ok _ Rail.reset_ok.ranges

theorem State.heldInReset_railOk (s : State) : s.heldInReset.railOk :=
  (State.railOk_iff _).2 ⟨Rail.reset_ok.sensed _ _ _, nofun⟩

/-! ### Sensing -/

theorem State.emitLive_keepsRail (n : NoteRequest) (s : State) : KeepsRail s (s.emitLive n) :=
  (s.onVoice_keepsRail _).trans (s.emitLive_play n).keepsRail

theorem State.takeStale_keepsRail (key : Key) (s : State) : KeepsRail s (s.takeStale key) := s.onScanner_keepsRail _

theorem State.takeGuard_keepsRail (key : Key) (s : State) : KeepsRail s (s.takeGuard key) := s.onScanner_keepsRail _

/-- Of a crossing the rail takes the report alone (R19). -/
theorem State.takeCrossing_keepsRail (key : Key) (g : Gate) (s : State) : KeepsRail s (s.takeCrossing key g) := by
  unfold State.takeCrossing
  split
  · simp only [State.crossing]
    have emitted (c : Scanner → Scanner) (l : List NoteRequest) :
        KeepsRail s (l.foldl (fun t n => t.emitLive n) (s.onScanner c)) :=
      (s.onScanner_keepsRail c).trans (State.foldl_keepsRail _ (fun t n => t.emitLive_keepsRail n) l _)
    split
    · exact (emitted _ _).trans (State.g2Report_keepsRail _)
    · exact emitted _ _
  · exact id

theorem State.takeKeyLeftovers_keepsRail (s : State) (key : Key) : KeepsRail s (s.takeKeyLeftovers key) :=
  ((((s.takeCrossing_keepsRail key .g2).trans (State.takeCrossing_keepsRail key .g1 _)).trans
    (State.takeCrossing_keepsRail key .g2 _)).trans (State.takeStale_keepsRail key _)).trans (State.takeGuard_keepsRail key _)

theorem State.takeSettle_keepsRail (s : State) : KeepsRail s s.takeSettle := by
  unfold State.takeSettle State.settleExpires
  split
  · extract_lets t
    have stopped : KeepsRail s t := s.onScanner_keepsRail _
    split
    · exact (stopped.trans (t.onScanner_keepsRail _)).trans (State.quietGrant_keepsRail _)
    · exact stopped
  · exact id

theorem State.takePlaybackTick_keepsRail (s : State) : KeepsRail s s.takePlaybackTick := by
  unfold State.takePlaybackTick
  split
  · exact s.playbackTick_play.keepsRail
  · exact id

theorem State.takeTickLeftovers_keepsRail (s : State) : KeepsRail s s.takeTickLeftovers :=
  (((State.foldl_keepsRail _ State.takeKeyLeftovers_keepsRail allKeys s).trans (State.takeSettle_keepsRail _)).trans
    (State.takePlaybackTick_keepsRail _)).trans (railOk_linkFree.takeInterByte _)

theorem State.tick_keepsRail (g1 g2 : BitVec 88) (s : State) : KeepsRail s (s.tick g1 g2) := by
  refine .of_eq ?_ ?_
  all_goals simp only [State.tick, State.onLink, State.onPlayer, State.onScanner]

/-! ### A scan and its confirmations -/

theorem State.takeLearning_keepsRail (s : State) : KeepsRail s s.takeLearning := by
  unfold State.takeLearning
  split
  · rename_i l _
    split
    · by_cases slot : s.link.slot = .running .startup
      · rw [s.completeLearning_startup l slot]
        exact KeepsRail.trans (t := s.learned l) (.of_eq rfl rfl) (State.endOperation_frame _ _ _).keepsRail
      · rw [s.completeLearning_alone l slot]
        exact KeepsRail.trans (t := s.learned l) (.of_eq rfl rfl) (State.endOperation_frame _ _ _).keepsRail
    · exact id
  · exact id

theorem State.confirmSostenuto_play (sample : Sample) (s : State) : PlayWork s (s.confirmSostenuto sample) := by
  unfold State.confirmSostenuto
  split
  · exact s.takeSostenuto_play
  · split
    · exact s.sostenutoTurns_play
    · exact .refl s

/-- The switches' samples count in their filters, which the invariant leaves free (R57). -/
theorem State.scanSwitches_keepsRail (samples : ScanSamples) (s : State) : KeepsRail s (s.scanSwitches samples) := by
  simp only [KeepsRail, State.railOk_iff]
  exact And.imp_left fun ok => ok.sensed _ _ _

theorem State.scan_keepsRail (samples : ScanSamples) (s : State) : KeepsRail s (s.scan samples) := by
  have leftovers : KeepsRail s s.takeScanLeftovers :=
    ((s.takeSostenuto_play.keepsRail.trans (State.takeSwitch_keepsRail .opened _)).trans
      (State.takeSwitch_keepsRail .closed _)).trans (State.takeLearning_keepsRail _)
  have sensors (t : State) : KeepsRail t (t.scanSensors samples) :=
    
    (((t.onTouch_keepsRail _).trans (State.onScanner_keepsRail _ _)).trans (State.onVoice_keepsRail _ _)).trans
      (t.scanSensors_pedalWork samples).keepsRail
  exact ((leftovers.trans (sensors _)).trans (State.scanSwitches_keepsRail samples _)).trans
    (State.onScanner_keepsRail _ _)

/-! ### The performance clock -/

/-- The move timer runs down, and one at 0 stays due (R68). -/
theorem Rail.ok.runDown {r : Rail} (ok : r.ok) : ({ r with moveTimer := runDown r.moveTimer } : Rail).ok :=
  ⟨ok.drive, (by simp only [Machine.runDown, Option.isSome_map]; exact ok.timer), ok.origin, ok.attempts, ok.ranges⟩

theorem State.envelopeTick_keepsRail (s : State) : KeepsRail s s.perfTick.envelope := by
  refine KeepsRail.trans (t := s.perfTick) ?_ (State.envelope_wave _).keepsRail
  refine s.takeMoveTimer_keepsRail.trans ?_
  simp only [KeepsRail, State.railOk_iff]
  exact And.imp_left Rail.ok.runDown

/-! ### Voices and arrivals -/

theorem State.takeRequestOf_keepsRail (source : Source) (n : NoteRequest) (take : State → State) (s : State)
    (keeps : ∀ t, KeepsRail t (take t)) : KeepsRail s (s.takeRequestOf source n take) := by
  unfold State.takeRequestOf
  split
  · exact (s.onVoice_keepsRail _).trans (keeps _)
  · exact id

theorem State.takeStrike_keepsRail (source : Source) (key : Key) (level : Byte) (s : State) :
    KeepsRail s (s.takeStrike source key level) := by
  obtain ⟨v, w, h⟩ := s.takeStrike_frame source key level
  rw [h]
  exact .of_eq rfl rfl

theorem State.takeRelease_keepsRail (source : Source) (key : Key) (level : Byte) (s : State) :
    KeepsRail s (s.takeRelease source key level) := by
  obtain ⟨v, h⟩ := s.takeRelease_frame source key level
  rw [h]
  exact .of_eq rfl rfl

theorem State.fetchArrives_wave (data : List Byte) (s : State) : WaveWork s (s.fetchArrives data) := by
  unfold State.fetchArrives
  split
  · split
    · refine WaveWork.trans ?_ (State.freePort_wave _)
      split
      · exact s.fetchTaken_wave _ data
      · exact .refl s
    · exact .refl s
  · exact .refl s

theorem State.endLoad_keepsRail (summary : LoadSummary) (s : State) : KeepsRail s (s.endLoad summary) := by
  unfold State.endLoad
  extract_lets t u
  have raised : KeepsRail s u := KeepsRail.trans (t := t) (.of_eq rfl rfl) (t.raiseIf_frame _ _).keepsRail
  split
  · exact raised.trans (u.endOperation_frame _ _).keepsRail
  · exact raised
  · exact raised

theorem State.loadTakes_keepsRail (data : List Byte) (s : State) : KeepsRail s (s.loadTakes data) := by
  unfold State.loadTakes
  split
  · exact id
  · split
    · unfold State.headerArrives
      extract_lets count total
      split
      · split
        · exact s.endLoad_keepsRail _
        · exact .of_eq rfl rfl
      · exact s.endLoad_keepsRail _
    · unfold State.entriesArrive
      extract_lets entries valid done skipped t
      split
      · exact KeepsRail.trans (t := t) (.of_eq rfl rfl) (t.endLoad_keepsRail _)
      · exact .of_eq rfl rfl

theorem State.loadReadArrives_keepsRail (data : List Byte) (s : State) : KeepsRail s (s.loadReadArrives data) := by
  unfold State.loadReadArrives
  split
  · split
    · refine KeepsRail.trans ?_ (State.freePort_wave _).keepsRail
      split
      · exact id
      · exact s.loadTakes_keepsRail data
    · exact id
  · exact id

theorem State.diagnosticArrives_keepsRail (data : List Byte) (s : State) : KeepsRail s (s.diagnosticArrives data) := by
  unfold State.diagnosticArrives
  split
  · split
    · extract_lets t
      have freed : KeepsRail s t := s.freePort_wave.keepsRail
      split <;> exact freed
    · exact id
  · exact id

/-! ### The pins of the rail -/

/-- The guard is sampled at all times: asserted outside a reset it puts the rail in FAULT (R58, R193). -/
theorem execRailGuardAsserted_keepsRail (s t : State) (h : execRailGuardAsserted s = .next t) : KeepsRail s t := by
  intro ok
  obtain ⟨rail, -⟩ := s.railOk_iff.1 ok
  have low : ({ s.rail with guardLow := true } : Rail).ok := rail.sensed s.rail.switchOpen s.rail.switchClosed true
  cases h
  split
  · rename_i held
    exact (State.railOk_iff _).2 ⟨low, fun on => absurd (on.symm.trans held) nofun⟩
  · exact State.railFaults_ok .guard _ low

theorem State.guardReleased_keepsRail (s : State) : KeepsRail s (s.onRail fun r => { r with guardLow := false }) := by
  simp only [KeepsRail, State.railOk_iff]
  rintro ⟨ok, -⟩
  exact ⟨ok.sensed _ _ false, nofun⟩

/-! ### The step -/

theorem unlessReset_keepsRail (f : State → State) (s t : State) (keeps : KeepsRail s (f s)) (h : unlessReset f s = .next t) :
    KeepsRail s t := by
  unfold unlessReset at h
  cases h
  split
  · exact id
  · exact keeps

/-- Every command keeps the Rail Controller's invariant. -/
theorem exec_keepsRail (c : Instr) (s t : State) (h : exec c s = .next t) : KeepsRail s t := by
  cases c with
  | resetNLow => cases h; exact fun _ => s.heldInReset_railOk
  | resetNHigh pins =>
    cases h
    split
    · exact fun _ => s.partReset_railOk pins
    · exact id
  | receiveByte byte stopHigh =>
    refine unlessReset_keepsRail _ s t ?_ h
    split
    · exact railOk_linkFree.takeByte byte s
    · exact railOk_linkFree.brokenByte s
  | interByteTimerExpiry => exact unlessReset_keepsRail _ s t (railOk_linkFree.takeInterByte s) h
  | replySent pins =>
    exact unlessReset_keepsRail _ s t (railOk_linkFree.replySent (fun pins s _ => s.partReset_railOk pins) pins s) h
  | unknownKind kind payload => exact unlessReset_keepsRail _ s t (railOk_linkFree.arriveBody kind payload s) h
  | gateSample g1 g2 =>
    exact unlessReset_keepsRail (fun s => s.takeTickLeftovers.tick g1 g2) s t 
      (s.takeTickLeftovers_keepsRail.trans (State.tick_keepsRail g1 g2 _)) h
  | gateCrossing key gate => exact unlessReset_keepsRail _ s t (s.takeCrossing_keepsRail key gate) h
  | staleMarkSet key => exact unlessReset_keepsRail _ s t (s.takeStale_keepsRail key) h
  | guardMarkSet key => exact unlessReset_keepsRail _ s t (s.takeGuard_keepsRail key) h
  | settleTimerExpiry => exact unlessReset_keepsRail _ s t s.takeSettle_keepsRail h
  | scan samples => exact unlessReset_keepsRail _ s t (s.scan_keepsRail samples) h
  | learnRestComplete => exact unlessReset_keepsRail _ s t s.takeLearning_keepsRail h
  | sostenutoConfirmed sample => exact unlessReset_keepsRail _ s t (s.confirmSostenuto_play sample).keepsRail h
  | endSwitchConfirmed switch => exact unlessReset_keepsRail _ s t (s.takeSwitch_keepsRail switch) h
  | railGuardAsserted => exact execRailGuardAsserted_keepsRail s t h
  | railGuardReleased => cases h; exact s.guardReleased_keepsRail
  | moveTimerExpiry => exact unlessReset_keepsRail _ s t s.takeMoveTimer_keepsRail h
  | voiceStrike source key level =>
    exact unlessReset_keepsRail _ s t (s.takeRequestOf_keepsRail _ _ _ (State.takeStrike_keepsRail source key level)) h
  | voiceRelease source key level =>
    exact unlessReset_keepsRail (State.takeRequestOf source (.release key level) (State.takeRelease source key level)) s t
      (s.takeRequestOf_keepsRail _ _ _ (State.takeRelease_keepsRail source key level)) h
  | envelopeTick => exact unlessReset_keepsRail (fun s => s.perfTick.envelope) s t s.envelopeTick_keepsRail h
  | audioFrame =>
    cases h
    split
    · exact id
    · obtain ⟨a, v, w, e⟩ := s.audioFrame_frame
      rw [e]
      exact .of_eq rfl rfl
  | fetchArrival data => exact unlessReset_keepsRail _ s t (s.fetchArrives_wave data).keepsRail h
  | loadReadArrival data => exact unlessReset_keepsRail _ s t (s.loadReadArrives_keepsRail data) h
  | diagnosticReadArrival data => exact unlessReset_keepsRail _ s t (s.diagnosticArrives_keepsRail data) h
  | playbackTick => exact unlessReset_keepsRail _ s t s.takePlaybackTick_keepsRail h
  | _ => exact unlessReset_keepsRail _ s t (railOk_linkFree.arrive _ s) h

/-- Settles O56: every command keeps the invariant, and a step takes one command or idles. -/
theorem everyStepKeepsTheRail : Obligations.EveryStepKeepsTheRail := by
  intro s t ok h
  unfold step at h
  split at h
  · cases h
    exact ok
  · exact exec_keepsRail _ _ t h ok

end Sys2Proof.Machine
end

section
/-! PROOFS. What the Rail Controller's operations do, by the rail's state: the grant, entry to FAULT, entry to HOMING, arrivals
and departures (R57 to R60, R63 to R71, R74, R75, R77). -/

namespace Sys2Proof.Machine

/-! ### The grant (R63) -/

theorem State.quietGrant_flying (s : State) (flying : s.scanner.quiet = false) : s.quietGrant = s := by
  rw [State.quietGrant, if_neg (Bool.eq_false_iff.1 flying)]

section
variable (s : State) (quiet : s.scanner.quiet = true)
include quiet

theorem State.quietGrant_waitQuiet (is : s.rail.state = .waitQuiet) : s.quietGrant
    = s.onRail fun r => { r with moveDuty := r.travelDuty }.driving .moving r.target r.travelDuty r.travelLimit := by
  simp only [State.quietGrant, quiet, is, if_true]

theorem State.quietGrant_homing (is : s.rail.state = .homing .waiting) :
    s.quietGrant = s.onRail (Rail.driving (.homing .driving) .opened 50 3000) := by
  simp only [State.quietGrant, quiet, is, if_true]
  rfl

theorem State.quietGrant_waitOpen (is : s.rail.state = .calibrating .waitOpen) : s.quietGrant = s.onRail fun r =>
    { r with legStart := s.perfClock }.driving (.calibrating .opening) .opened r.moveDuty r.travelLimit := by
  simp only [State.quietGrant, quiet, is, if_true]

end

/-! ### Entry to FAULT (R71, R77) -/

/-- A second cause taken in FAULT changes nothing (R71). -/
theorem State.railFaults_again (reason before : FaultReason) (s : State) (is : s.rail.state = .fault before) :
    s.railFaults reason = s := by
  simp only [State.railFaults, is]

theorem State.railFaults_alone (reason : FaultReason) (s : State) (running : ∀ before, s.rail.state ≠ .fault before)
    (noCalibration : ∀ phase, s.rail.state ≠ .calibrating phase) :
    s.railFaults reason = (s.onRail (Rail.rest (.fault reason))).raise .railFault := by
  unfold State.railFaults
  split
  · exact absurd ‹_› (running _)
  · exact absurd ‹_› (noCalibration _)
  · rfl

/-- From CALIBRATING, entry to FAULT ends the operation (R77). -/
theorem State.railFaults_calibrating (reason : FaultReason) (s : State) (phase : CalPhase)
    (is : s.rail.state = .calibrating phase) (slot : s.link.slot = .running .railCalibrate) :
    s.railFaults reason = { s with
      rail := s.rail.rest (.fault reason)
      link := { s.link with
        slot := .finished .railCalibrate .failed (.railFault reason)
        pendingSet := s.link.pendingSet ||| (Notice.railFault.bit ||| Notice.opDone.bit) } } := by
  simp only [State.railFaults, is]
  refine (State.endOperation_running .railCalibrate _ _ ((s.onRail (Rail.rest (.fault reason))).raise .railFault) slot).trans ?_
  rw [← BitVec.or_assoc]
  rfl

/-! ### Arrivals (R57, R60, R65, R67, R69, R74) -/

theorem State.railArrives_faulted (e : RailEnd) (reason : FaultReason) (s : State) (is : s.rail.state = .fault reason) :
    s.railArrives e = s := by
  simp only [State.railArrives, is]

/-- Both switches ACTIVE are a conflict in every state but FAULT, where neither the arrival nor the cause counts (R69). -/
theorem State.railArrives_conflict (e : RailEnd) (s : State)
    (both : (s.rail.switchOpen.on && s.rail.switchClosed.on) = true) : s.railArrives e = s.railFaults .switchConflict := by
  unfold State.railArrives
  split
  · exact (s.railFaults_again _ _ ‹_›).symm
  · exact if_pos both

section
variable (s : State) (single : (s.rail.switchOpen.on && s.rail.switchClosed.on) = false)
include single

theorem State.railArrives_homing (phase : HomingPhase) (is : s.rail.state = .homing phase) :
    s.railArrives .opened = (s.onRail (Rail.rest .opened)).raise .railDone := by
  simp only [State.railArrives, is, single, Bool.false_eq_true, if_false]

theorem State.railArrives_moving (e : RailEnd) (is : s.rail.state = .moving) (target : e = s.rail.target) :
    s.railArrives e = (s.onRail (Rail.rest (restingAt e))).raise .railDone := by
  simp only [State.railArrives, is, single, Bool.false_eq_true, if_false, ← target, if_true]

theorem State.railArrives_retry (e : RailEnd) (is : s.rail.state = .returning .retry) (origin : some e = s.rail.origin)
    (few : s.rail.attempts < 3) : s.railArrives e = (s.onRail (Rail.rest .waitQuiet)).quietGrant := by
  have few : s.rail.attempts < Config.maxAttempts := few
  simp only [State.railArrives, is, single, Bool.false_eq_true, if_false, ← origin, if_true, few]

theorem State.railArrives_giveup (e : RailEnd) (is : s.rail.state = .returning .retry) (origin : some e = s.rail.origin)
    (spent : 3 ≤ s.rail.attempts) : s.railArrives e = (s.onRail (Rail.rest (restingAt e))).raise .railGiveup := by
  have spent : ¬ s.rail.attempts < Config.maxAttempts := Nat.not_lt.2 spent
  simp only [State.railArrives, is, single, Bool.false_eq_true, if_false, ← origin, if_true, spent]

theorem State.railArrives_returned (is : s.rail.state = .returning .calibration) :
    s.railArrives .opened = s.onRail (Rail.rest .opened) := by
  simp only [State.railArrives, is, single, Bool.false_eq_true, if_false]

theorem State.railArrives_closing (is : s.rail.state = .calibrating .closing) : s.railArrives .closed
    = (s.onRail fun r => { r.rest (.calibrating .waitOpen) with
        legClosing := ageOf s.perfClock r.legStart }).quietGrant := by
  simp only [State.railArrives, is, single, Bool.false_eq_true, if_false]

theorem State.railArrives_opening (is : s.rail.state = .calibrating .opening) :
    s.railArrives .opened = s.calibrationCompletes := by
  simp only [State.railArrives, is, single, Bool.false_eq_true, if_false]

end

/-- The arrivals that a rail's state has no use for: at rest, in a wait, or at an end it does not drive to. -/
def Rail.passes (e : RailEnd) (r : Rail) : Prop :=
  r.state = .opened ∨ r.state = .closed ∨ r.state = .waitQuiet
    ∨ r.state = .moving ∧ e ≠ r.target ∨ r.state = .returning .retry ∧ some e ≠ r.origin
    ∨ (∃ phase, r.state = .homing phase) ∧ e = .closed ∨ r.state = .returning .calibration ∧ e = .closed
    ∨ r.state = .calibrating .closing ∧ e = .opened ∨ r.state = .calibrating .opening ∧ e = .closed
    ∨ r.state = .calibrating .waitClose ∨ r.state = .calibrating .waitOpen

theorem State.railArrives_passes (e : RailEnd) (s : State) (passes : s.rail.passes e)
    (single : (s.rail.switchOpen.on && s.rail.switchClosed.on) = false) : s.railArrives e = s := by
  rcases passes with is | is | is | ⟨is, past⟩ | ⟨is, past⟩ | ⟨⟨phase, is⟩, rfl⟩ | ⟨is, rfl⟩ | ⟨is, rfl⟩ | ⟨is, rfl⟩
    | is | is
  case inr.inr.inr.inl | inr.inr.inr.inr.inl =>
    simp only [State.railArrives, is, single, Bool.false_eq_true, if_false, if_neg past]
  all_goals simp only [State.railArrives, is, single, Bool.false_eq_true, if_false]

/-! ### Departures (R57, R70) -/

/-- To rest at an end is neither FAULT nor a calibration. -/
theorem restingAt_ne (e : RailEnd) :
    (∀ reason, restingAt e ≠ .fault reason) ∧ ∀ phase, restingAt e ≠ .calibrating phase := by
  cases e <;> exact ⟨nofun, nofun⟩

theorem Rail.restSwitch_resting (e : RailEnd) (r : Rail) (is : r.state = restingAt e) : r.restSwitch = some e := by
  cases e <;> simp only [Rail.restSwitch, is, restingAt]

theorem Rail.restSwitch_waitQuiet (r : Rail) (is : r.state = .waitQuiet) : r.restSwitch = r.origin := by
  simp only [Rail.restSwitch, is]

theorem Rail.restSwitch_driving (r : Rail) (drives : r.state = .moving ∨ (∃ kind, r.state = .returning kind)
    ∨ (∃ phase, r.state = .homing phase) ∨ r.state = .calibrating .closing ∨ r.state = .calibrating .opening) :
    r.restSwitch = none := by
  rcases drives with is | ⟨kind, is⟩ | ⟨phase, is⟩ | is | is
  all_goals simp only [Rail.restSwitch, is]

theorem State.railDeparts_drift (e : RailEnd) (s : State) (rests : s.rail.restSwitch = some e) :
    s.railDeparts e = s.railFaults .drift := if_pos rests

/-- The departure of a rail that rests on no switch. -/
theorem State.railDeparts_restless (e : RailEnd) (s : State) (restless : s.rail.restSwitch = none) : s.railDeparts e = s :=
  if_neg (by rw [restless]; nofun)

/-! ### END SWITCH CONFIRMED (R57) -/

/-- The end across. -/
def otherEnd : RailEnd → RailEnd
  | .opened => .closed
  | .closed => .opened

/-- The rail with the change of one end's switch confirmed. -/
def Rail.turned (e : RailEnd) (on : Bool) (r : Rail) : Rail :=
  { r with
    switchOpen := if e = .opened then ⟨on, 0⟩ else r.switchOpen
    switchClosed := if e = .closed then ⟨on, 0⟩ else r.switchClosed }

theorem Rail.onSwitch_confirm (e : RailEnd) (r : Rail) :
    r.onSwitch e ScanFilter.confirm = r.turned e (!(r.switch e).on) := by
  cases e <;> rfl

theorem Rail.turned_on (e : RailEnd) (on : Bool) (r : Rail) : ((r.turned e on).switch e).on = on := by
  cases e <;> rfl

theorem Rail.turned_both (e : RailEnd) (r : Rail) :
    ((r.turned e true).switchOpen.on && (r.turned e true).switchClosed.on) = (r.switch (otherEnd e)).on := by
  cases e
  · rfl
  · exact Bool.and_true _

section
variable (e : RailEnd) (s : State) (awake : s.inReset = false)
include awake

/-- A change that is not due is not confirmed (notes/assumptions/4.md). -/
theorem endSwitchConfirmed_notDue (waits : (s.rail.switch e).count ≠ 3) : exec (.endSwitchConfirmed e) s = .next s :=
  (unlessReset_on (State.takeSwitch e) s awake).trans
    (congrArg _ (if_neg fun due => waits ((ScanFilter.due_iff _).1 due)))

theorem endSwitchConfirmed_due (due : (s.rail.switch e).count = 3) : exec (.endSwitchConfirmed e) s
    = .next (if (s.rail.switch e).on then (s.onRail (Rail.turned e false)).railDeparts e
        else (s.onRail (Rail.turned e true)).railArrives e) := by
  refine (unlessReset_on (State.takeSwitch e) s awake).trans (congrArg _ ((if_pos ((ScanFilter.due_iff _).2 due)).trans ?_))
  have turns : s.onRail (Rail.onSwitch e ScanFilter.confirm) = s.onRail (Rail.turned e (!(s.rail.switch e).on)) :=
    congrArg (fun r => { s with rail := r }) (s.rail.onSwitch_confirm e)
  simp only [State.confirmSwitch, turns, State.onRail_rail, Rail.turned_on]
  cases (s.rail.switch e).on <;> rfl

theorem endSwitchConfirmed_arrives (own : s.rail.switch e = ⟨false, 3⟩) :
    exec (.endSwitchConfirmed e) s = .next ((s.onRail (Rail.turned e true)).railArrives e) := by
  rw [endSwitchConfirmed_due e s awake (by rw [own]), own]
  rfl

theorem endSwitchConfirmed_departs (own : s.rail.switch e = ⟨true, 3⟩) :
    exec (.endSwitchConfirmed e) s = .next ((s.onRail (Rail.turned e false)).railDeparts e) := by
  rw [endSwitchConfirmed_due e s awake (by rw [own]), own]
  rfl

end

/-! ### Entry to HOMING (R59, R60) -/

/-- The rail as it enters HOMING, before its switches and the quiet indicator are read. -/
def Rail.homed (r : Rail) : Rail := { r.rest (.homing .waiting) with attempts := 0, target := .opened, origin := none }

section
variable (s : State) (released : s.rail.guardLow = false)
include released

theorem State.enterHoming_conflict (opened : s.rail.switchOpen.on = true) (closed : s.rail.switchClosed.on = true) :
    s.enterHoming = (s.onRail fun r => r.homed.rest (.fault .switchConflict)).raise .railFault := by
  refine (if_neg (Bool.eq_false_iff.1 released)).trans ((if_pos ?_).trans ?_)
  · exact Bool.and_eq_true_iff.2 ⟨opened, closed⟩
  · rfl

theorem State.enterHoming_open (opened : s.rail.switchOpen.on = true) (closed : s.rail.switchClosed.on = false) :
    s.enterHoming = (s.onRail fun r => r.homed.rest .opened).raise .railDone := by
  refine (if_neg (Bool.eq_false_iff.1 released)).trans ((if_neg ?_).trans ((if_pos opened).trans rfl))
  exact fun both => Bool.eq_false_iff.1 closed (Bool.and_eq_true_iff.1 both).2

theorem State.enterHoming_away (away : s.rail.switchOpen.on = false) :
    s.enterHoming = (s.onRail Rail.homed).quietGrant := by
  have away := Bool.eq_false_iff.1 away
  refine (if_neg (Bool.eq_false_iff.1 released)).trans ((if_neg ?_).trans (if_neg away))
  exact fun both => away (Bool.and_eq_true_iff.1 both).1

end

end Sys2Proof.Machine
end

section
/-! PROOFS. The guard and the move timer (R58, R68, R71), the end switches (R57, R60, R63 to R70), and a calibration's legs and
failures (R74, R75, R77). -/

namespace Sys2Proof.Machine

/-! ### The guard and the move timer (R58, R68) -/

theorem railGuardAsserted_on (s : State) (awake : s.inReset = false) :
    exec .railGuardAsserted s = .next ((s.onRail fun r => { r with guardLow := true }).railFaults .guard) :=
  congrArg Host.Outcome.next (if_neg (Bool.eq_false_iff.1 awake))

/-- Held in reset, or in FAULT, the guard's assertion changes its pin alone (R58, R71, R193). -/
theorem railGuardAsserted_kept (s : State) (kept : s.inReset = true ∨ ∃ reason, s.rail.state = .fault reason) :
    exec .railGuardAsserted s = .next (s.onRail fun r => { r with guardLow := true }) := by
  cases reset : s.inReset with
  | true => exact congrArg Host.Outcome.next (if_pos reset)
  | false =>
    obtain ⟨reason, is⟩ := kept.resolve_left (by rw [reset]; nofun)
    exact (railGuardAsserted_on s reset).trans (congrArg _ (State.railFaults_again .guard reason (s.onRail _) is))

theorem moveTimerExpiry_due (s : State) (awake : s.inReset = false) (due : s.rail.moveTimer = some 0) :
    exec .moveTimerExpiry s = .next (s.railFaults .travelTimeout) :=
  (unlessReset_on State.takeMoveTimer s awake).trans (congrArg _ (if_pos (decide_eq_true due)))

theorem moveTimerExpiry_notDue (s : State) (awake : s.inReset = false) (runs : s.rail.moveTimer ≠ some 0) :
    exec .moveTimerExpiry s = .next s :=
  (unlessReset_on State.takeMoveTimer s awake).trans (congrArg _ (if_neg fun due => runs (of_decide_eq_true due)))

/-- Settles O35: held in reset or in FAULT only the pin is kept, and elsewhere either cause enters FAULT. -/
theorem guardAndTimerStopTheRail : Obligations.GuardAndTimerStopTheRail := by
  intro s faults
  refine ⟨rfl, railGuardAsserted_kept s, fun awake running noCalibration => ⟨?_, fun due => ?_⟩,
    moveTimerExpiry_notDue s⟩
  · exact (railGuardAsserted_on s awake).trans
      (congrArg _ (State.railFaults_alone _ (s.onRail _) running noCalibration))
  · exact (moveTimerExpiry_due s awake due).trans (congrArg _ (s.railFaults_alone _ running noCalibration))

/-! ### The end switches (R57) -/

/-- Settles O33: a change that is due is an arrival or a departure, and each by the rail's state. -/
theorem switchChangesMoveTheRail : Obligations.SwitchChangesMoveTheRail := by
  intro s e awake own other resting turned rest kept
  have ownIs : own = s.rail.switch e := by cases e <;> rfl
  have otherIs : other = s.rail.switch (otherEnd e) := by cases e <;> rfl
  have restingIs : resting = restingAt e := by cases e <;> rfl
  have keptOf (on : Bool) (h : exec (.endSwitchConfirmed e) s = .next (s.onRail (Rail.turned e on))) : kept on := by
    cases e <;> exact h
  have restOf (on : Bool) (st : RailState) (n : Notice) (h : exec (.endSwitchConfirmed e) s
      = .next (((s.onRail (Rail.turned e on)).onRail (Rail.rest st)).raise n)) : rest on st n.bit := by
    cases e <;> exact h
  have quietRestOf (on : Bool) (st : RailState) (h : exec (.endSwitchConfirmed e) s
      = .next ((s.onRail (Rail.turned e on)).onRail (Rail.rest st))) : rest on st 0 := by
    have noNotice : s.link.pendingSet ||| (0 : BitVec 11) = s.link.pendingSet := BitVec.or_zero
    refine h.trans ?_
    rw [noNotice]
    cases e <;> rfl
  rw [ownIs, otherIs, restingIs]
  refine ⟨endSwitchConfirmed_notDue e s awake, fun due single => ?_, fun due both running noCalibration => ?_,
    fun due reason is => ?_, fun due => ⟨fun rests => ?_, fun drives => ?_⟩⟩
  · have arrives := endSwitchConfirmed_arrives e s awake due
    have single := (s.rail.turned_both e).trans single
    refine ⟨?_, fun is origin few flying => ?_, fun is origin few quiet => ?_, fun is origin spent => ?_, fun is opened => ?_,
      fun passes => ?_⟩
    · rintro (⟨is, target⟩ | ⟨⟨phase, is⟩, rfl⟩)
      · exact restOf _ _ _ (arrives.trans (congrArg _ (State.railArrives_moving _ single e is target)))
      · exact restOf _ _ _ (arrives.trans (congrArg _ (State.railArrives_homing _ single phase is)))
    · have waits := State.railArrives_retry (s.onRail (Rail.turned e true)) single e is origin few
      exact quietRestOf _ _ (arrives.trans (congrArg _ (waits.trans (State.quietGrant_flying _ flying))))
    · have waits := State.railArrives_retry (s.onRail (Rail.turned e true)) single e is origin few
      refine arrives.trans ((congrArg _ (waits.trans (State.quietGrant_waitQuiet _ quiet rfl))).trans ?_)
      cases e <;> rfl
    · exact restOf _ _ _ (arrives.trans (congrArg _ (State.railArrives_giveup _ single e is origin spent)))
    · subst opened
      exact quietRestOf _ _ (arrives.trans (congrArg _ (State.railArrives_returned _ single is)))
    · exact keptOf _ (arrives.trans (congrArg _ (State.railArrives_passes e _ passes single)))
  · refine restOf _ _ _ ((endSwitchConfirmed_arrives e s awake due).trans (congrArg _ ?_))
    exact (State.railArrives_conflict e _ ((s.rail.turned_both e).trans both)).trans
      (State.railFaults_alone _ _ running noCalibration)
  · refine keptOf _ ((endSwitchConfirmed_due e s awake due).trans (congrArg _ ?_))
    cases (s.rail.switch e).on with
    | false => exact State.railArrives_faulted e reason _ is
    | true => exact State.railDeparts_restless e _ (by simp only [Rail.restSwitch, State.onRail_rail, Rail.turned, is])
  · have drifts (rested : s.rail.restSwitch = some e) (running : ∀ reason, s.rail.state ≠ .fault reason)
        (noCalibration : ∀ phase, s.rail.state ≠ .calibrating phase) :
        rest false (.fault .drift) Notice.railFault.bit :=
      restOf _ _ _ ((endSwitchConfirmed_departs e s awake due).trans (congrArg _
        ((State.railDeparts_drift e (s.onRail (Rail.turned e false)) rested).trans
          (State.railFaults_alone _ _ running noCalibration))))
    obtain is | ⟨is, origin⟩ := rests
    · obtain ⟨running, noCalibration⟩ := restingAt_ne e
      rw [← is] at running noCalibration
      exact drifts (s.rail.restSwitch_resting e is) running noCalibration
    · exact drifts ((s.rail.restSwitch_waitQuiet is).trans origin) (by rw [is]; nofun) (by rw [is]; nofun)
  · exact keptOf _ ((endSwitchConfirmed_departs e s awake due).trans
      (congrArg _ (State.railDeparts_restless e _ (Rail.restSwitch_driving _ drives))))

/-! ### The legs of a calibration (R74, R75, R77) -/

/-- Settles O34: each leg's end by the arrival it waits for, and each failure as an entry to FAULT that ends the operation. -/
theorem calibrationMeasuresItsLegs : Obligations.CalibrationMeasuresItsLegs := by
  intro s awake slot ended failed
  have failedOf (c : Instr) (f : Rail → Rail) (reason : FaultReason) (phase : CalPhase)
      (is : (f s.rail).state = .calibrating phase) (h : exec c s = .next ((s.onRail f).railFaults reason)) :
      failed c (f s.rail) reason :=
    h.trans (congrArg _ (State.railFaults_calibrating reason (s.onRail f) phase is slot))
  have conflict (e : RailEnd) (phase : CalPhase) (is : s.rail.state = .calibrating phase)
      (own : s.rail.switch e = ⟨false, 3⟩) (other : (s.rail.switch (otherEnd e)).on = true) :
      failed (.endSwitchConfirmed e) (s.rail.turned e true) .switchConflict :=
    failedOf _ (Rail.turned e true) _ phase is ((endSwitchConfirmed_arrives e s awake own).trans
      (congrArg _ (State.railArrives_conflict e _ ((s.rail.turned_both e).trans other))))
  have drift (e : RailEnd) (phase : CalPhase) (is : s.rail.state = .calibrating phase) (own : s.rail.switch e = ⟨true, 3⟩)
      (rests : (s.rail.turned e false).restSwitch = some e) :
      failed (.endSwitchConfirmed e) (s.rail.turned e false) .drift :=
    failedOf _ (Rail.turned e false) _ phase is ((endSwitchConfirmed_departs e s awake own).trans
      (congrArg _ (State.railDeparts_drift e _ rests)))
  refine ⟨fun is own single flying => ?_, fun is own single quiet => ?_, fun is own single => ?_,
    fun phase is => ⟨?_, fun due => ?_, conflict .closed phase is, conflict .opened phase is⟩, fun is own => ?_, fun is own => ?_⟩
  · have arrives := State.railArrives_closing (s.onRail (Rail.turned .closed true))
      ((s.rail.turned_both .closed).trans single) is
    exact (endSwitchConfirmed_arrives .closed s awake own).trans
      (congrArg _ (arrives.trans (State.quietGrant_flying _ flying)))
  · have arrives := State.railArrives_closing (s.onRail (Rail.turned .closed true))
      ((s.rail.turned_both .closed).trans single) is
    exact (endSwitchConfirmed_arrives .closed s awake own).trans
      (congrArg _ (arrives.trans (State.quietGrant_waitOpen _ quiet rfl)))
  · have arrives := State.railArrives_opening (s.onRail (Rail.turned .opened true))
      ((s.rail.turned_both .opened).trans single) is
    exact (endSwitchConfirmed_arrives .opened s awake own).trans
      (congrArg _ (arrives.trans (State.endOperation_running .railCalibrate _ _ _ slot)))
  · exact failedOf _ (fun r => { r with guardLow := true }) _ phase is (railGuardAsserted_on s awake)
  · exact failedOf _ id _ phase is (moveTimerExpiry_due s awake due)
  · exact drift .opened _ is own (by simp only [Rail.restSwitch, Rail.turned, is])
  · exact drift .closed _ is own (by simp only [Rail.restSwitch, Rail.turned, is])

end Sys2Proof.Machine
end

section
/-! PROOFS. SET RAIL MODE (R61, R63) and CLEAR RAIL FAULT (R59, R60, R72), by the rail's state. -/

namespace Sys2Proof.Machine

/-! ### SET RAIL MODE (R61) -/

theorem setRailMode_served (code : Byte) (s : State) (taking : s.taking) :
    exec (.setRailMode code) s = .next (State.conclude 0x28#8 false (serveSetRailMode code s)) :=
  unlessReset_arrive_taking (.setRailMode code) s taking rfl

theorem railEndOf_unknown {code : Byte} (unknown : 2 ≤ code.toNat) : railEndOf code = none := by
  rw [railEndOf]
  split
  case h_3 => rfl
  all_goals omega

/-- A move set up while keys fly waits (R61). -/
theorem State.setUpMove_flying (target origin : RailEnd) (s : State) (flying : s.scanner.quiet = false) :
    s.setUpMove target origin
      = s.onRail fun r => { r.rest .waitQuiet with target := target, origin := some origin, attempts := 0 } :=
  State.quietGrant_flying _ flying

/-- A move set up on a quiet action begins at once (R61, R63). -/
theorem State.setUpMove_quiet (target origin : RailEnd) (s : State) (quiet : s.scanner.quiet = true) :
    s.setUpMove target origin = s.onRail fun r =>
      { r with target := target, origin := some origin, attempts := 0, moveDuty := r.travelDuty }.driving .moving target
        r.travelDuty r.travelLimit :=
  State.quietGrant_waitQuiet _ quiet rfl

section
variable {code : Byte} (e : RailEnd) (s : State) (known : railEndOf code = some e)
include known

theorem serveSetRailMode_there (is : s.rail.state = restingAt e) : serveSetRailMode code s = .ok s := by
  cases e <;> simp only [serveSetRailMode, known, is, restingAt]

theorem serveSetRailMode_across (origin : RailEnd) (across : origin ≠ e) (is : s.rail.state = restingAt origin) :
    serveSetRailMode code s = .ok (s.setUpMove e origin) := by
  cases origin <;> cases e
  case opened.opened | closed.closed => exact absurd rfl across
  all_goals simp only [serveSetRailMode, known, is, restingAt]

theorem serveSetRailMode_waiting (is : s.rail.state = .waitQuiet) :
    serveSetRailMode code s = if e = s.rail.target then .ok s else .ok (s.onRail (Rail.rest (restingAt e))) := by
  simp only [serveSetRailMode, known, is]

theorem serveSetRailMode_busy (busy : s.rail.state = .moving ∨ (∃ kind, s.rail.state = .returning kind)
    ∨ (∃ phase, s.rail.state = .homing phase) ∨ ∃ phase, s.rail.state = .calibrating phase) :
    serveSetRailMode code s = .refuse .busy s := by
  rcases busy with is | ⟨kind, is⟩ | ⟨phase, is⟩ | ⟨phase, is⟩
  all_goals simp only [serveSetRailMode, known, is]

theorem serveSetRailMode_faulted (reason : FaultReason) (is : s.rail.state = .fault reason) :
    serveSetRailMode code s = .refuse .wrongState s := by
  simp only [serveSetRailMode, known, is]

end

/-! ### CLEAR RAIL FAULT (R72) -/

theorem clearRailFault_served (s : State) (taking : s.taking) :
    exec .clearRailFault s = .next (State.conclude 0x29#8 false (serveClearRailFault s)) :=
  unlessReset_arrive_taking .clearRailFault s taking rfl

theorem serveClearRailFault_refused (s : State)
    (refused : (∀ reason, s.rail.state ≠ .fault reason) ∨ s.rail.guardLow = true) :
    serveClearRailFault s = .refuse .wrongState s := by
  unfold serveClearRailFault
  split
  · exact if_pos (refused.resolve_left fun running => running _ ‹_›)
  · rfl

theorem serveClearRailFault_accepted (reason : FaultReason) (s : State) (is : s.rail.state = .fault reason)
    (released : s.rail.guardLow = false) : serveClearRailFault s = .ok s.enterHoming := by
  simp only [serveClearRailFault, is, released, Bool.false_eq_true, if_false]

/-- Settles O32: each request by the rail's state, and the move set up or the homing entered by the quiet indicator. -/
theorem railRequestsFollowTheState : Obligations.RailRequestsFollowTheState := by
  refine ⟨fun s taking => ?_, fun s taking => ⟨fun refused => ?_, fun reason is released => ?_⟩⟩
  · intro mode resting moved
    have restingIs (e : RailEnd) : resting e = restingAt e := by cases e <;> rfl
    have served (e : RailEnd) (v : Served) (h : ∀ code, railEndOf code = some e → serveSetRailMode code s = v) :
        exec (mode e) s = .next (State.conclude 0x28#8 false v) := by
      cases e <;> exact (setRailMode_served _ s taking).trans (congrArg _ (congrArg _ (h _ rfl)))
    refine ⟨fun code unknown => ?_, fun e is => ?_, fun origin e across is => ⟨fun flying => ?_, fun quiet => ?_⟩,
      fun e is same => ?_, fun e is back => ?_, fun e busy => ?_, fun e reason is => ?_⟩
    · rw [setRailMode_served code s taking, serveSetRailMode, railEndOf_unknown unknown]
      rfl
    · exact served e _ fun _ known => serveSetRailMode_there e s known ((restingIs e) ▸ is)
    · refine (served e _ fun _ known => serveSetRailMode_across e s known origin across ((restingIs origin) ▸ is)).trans ?_
      rw [State.setUpMove_flying _ _ s flying]
      rfl
    · refine (served e _ fun _ known => serveSetRailMode_across e s known origin across ((restingIs origin) ▸ is)).trans ?_
      rw [State.setUpMove_quiet _ _ s quiet]
      rfl
    · exact served e _ fun _ known => (serveSetRailMode_waiting e s known is).trans (if_pos same)
    · refine (served e _ fun _ known => (serveSetRailMode_waiting e s known is).trans (if_neg back)).trans ?_
      rw [← restingIs]
      rfl
    · exact served e _ fun _ known => serveSetRailMode_busy e s known busy
    · exact served e _ fun _ known => serveSetRailMode_faulted e s known reason is
  · rw [clearRailFault_served s taking, serveClearRailFault_refused s refused]
    rfl
  · intro homed
    have accepted (t : State) (h : s.enterHoming = t) :
        exec .clearRailFault s = .next (State.replying 0x29#8 .ok [] t) := by
      rw [clearRailFault_served s taking, serveClearRailFault_accepted reason s is released, h]
      rfl
    have noNotice : s.link.pendingSet ||| (0 : BitVec 11) = s.link.pendingSet := BitVec.or_zero
    refine ⟨fun opened closed => ?_, fun opened closed => ?_, fun away flying => ?_, fun away quiet => ?_⟩
    · exact accepted _ (s.enterHoming_conflict released opened closed)
    · exact accepted _ (s.enterHoming_open released opened closed)
    · refine (accepted _ ((s.enterHoming_away released away).trans (State.quietGrant_flying _ flying))).trans ?_
      rw [noNotice]
      rfl
    · refine (accepted _ ((s.enterHoming_away released away).trans (State.quietGrant_homing _ quiet rfl))).trans ?_
      rw [noNotice]
      rfl

end Sys2Proof.Machine
end

section
/-! PROOFS. The wave store port (R115 to R120): what the arbiter starts, what it leaves of each buffer, and what an arriving
fetch gives its voice. -/

namespace Sys2Proof.Machine

/-! ### The arbiter's choice (R119) -/

theorem State.arbitrate_busy (p : Transfer) (s : State) (busy : s.wave.port = some p) : s.arbitrate = s := by
  simp only [State.arbitrate, busy]

theorem State.arbitrate_load (l : Load) (s : State) (free : s.wave.port = none) (load : s.wave.load = some l)
    (waits : l.waiting = true) : s.arbitrate = s.onWave fun w => { w with
      port := some (.loadRead l.nextRead.1 l.nextRead.2 false), load := some { l with waiting := false } } := by
  simp only [State.arbitrate, free, load, waits, if_true]

theorem State.arbitrate_fetch (i : VoiceIx) (s : State) (free : s.wave.port = none)
    (noRead : ∀ l, s.wave.load = some l → l.waiting = false) (neediest : s.wave.neediest = some i) :
    s.arbitrate = s.startFetch i := by
  cases load : s.wave.load with
  | none => simp only [State.arbitrate, free, load, neediest]
  | some l => simp only [State.arbitrate, free, load, noRead l load, Bool.false_eq_true, if_false, neediest]

/-- With no load running and no voice asking, the oldest diagnostic read, if any, takes the free port. -/
theorem State.arbitrate_diagnostic (d : DiagnosticRead) (rest : List DiagnosticRead) (s : State) (free : s.wave.port = none)
    (noLoad : s.wave.load = none) (noFetch : s.wave.neediest = none) (waits : s.wave.diagnostics = d :: rest) :
    s.arbitrate = s.onWave fun w => { w with port := some (.diagnostic d.address d.count), diagnostics := rest } := by
  simp only [State.arbitrate, free, noLoad, noFetch, waits]

theorem State.arbitrate_idle (s : State) (noRead : ∀ l, s.wave.load = some l → l.waiting = false)
    (noFetch : s.wave.neediest = none) (noDiagnostic : s.wave.load ≠ none ∨ s.wave.diagnostics = []) : s.arbitrate = s := by
  cases free : s.wave.port with
  | some p => exact s.arbitrate_busy p free
  | none =>
    cases load : s.wave.load with
    | some l => simp only [State.arbitrate, free, load, noRead l load, Bool.false_eq_true, if_false, noFetch]
    | none => simp only [State.arbitrate, free, load, noFetch, noDiagnostic.resolve_left (· load)]

/-! ### What the arbiter leaves -/

/-- A buffer whose voice's fetch is started (R116). -/
def Buffer.fetching (b : Buffer) : Buffer := { b with inFlight := true, requesting := false }

/-- What an arbitration does: it may change the port, the load and the diagnostic reads, and it marks the buffer of a
requesting voice as in flight, or none (R116, R119). -/
theorem State.arbitrate_spec (s : State) : ∃ (port : Option Transfer) (load : Option Load) (reads : List DiagnosticRead)
    (buffers : Vector Buffer 96), s.arbitrate = { s with wave := { s.wave with
        port := port, load := load, diagnostics := reads, buffers := buffers } }
      ∧ ∀ i : VoiceIx, buffers[i] = s.wave.buffers[i]
        ∨ s.wave.buffers[i].requesting = true ∧ buffers[i] = s.wave.buffers[i].fetching := by
  have same : ∃ port load reads buffers, s = { s with wave := { s.wave with
        port := port, load := load, diagnostics := reads, buffers := buffers } }
      ∧ ∀ i : VoiceIx, buffers[i] = s.wave.buffers[i]
        ∨ s.wave.buffers[i].requesting = true ∧ buffers[i] = s.wave.buffers[i].fetching :=
    ⟨s.wave.port, s.wave.load, s.wave.diagnostics, s.wave.buffers, rfl, fun _ => .inl rfl⟩
  cases free : s.wave.port with
  | some p => rwa [s.arbitrate_busy p free]
  | none =>
    by_cases read : ∃ l, s.wave.load = some l ∧ l.waiting = true
    · obtain ⟨l, load, waits⟩ := read
      rw [s.arbitrate_load l free load waits]
      exact ⟨_, _, s.wave.diagnostics, s.wave.buffers, rfl, fun _ => .inl rfl⟩
    · have noRead (l : Load) (load : s.wave.load = some l) : l.waiting = false :=
        Bool.eq_false_iff.2 fun waits => read ⟨l, load, waits⟩
      cases neediest : s.wave.neediest with
      | some j =>
        rw [s.arbitrate_fetch j free noRead neediest]
        have asks : s.wave.buffers[j].requesting = true :=
          ((s.wave.neediest_fold allVoices (List.pairwise_lt_finRange 96) none nofun).1 j neediest).1
        refine ⟨_, s.wave.load, s.wave.diagnostics, updateAt j Buffer.fetching s.wave.buffers, rfl, fun i => ?_⟩
        rw [Fin.getElem_fin, updateAt_getElem]
        split
        · next at_j => exact .inr (by rw [← Fin.ext at_j]; exact ⟨asks, rfl⟩)
        · exact .inl rfl
      | none =>
        by_cases idle : s.wave.load ≠ none ∨ s.wave.diagnostics = []
        · rwa [s.arbitrate_idle noRead neediest idle]
        · rw [not_or, not_not] at idle
          obtain ⟨d, rest, waits⟩ := List.exists_cons_of_ne_nil idle.2
          rw [s.arbitrate_diagnostic d rest free idle.1 neediest waits]
          exact ⟨_, s.wave.load, rest, s.wave.buffers, rfl, fun _ => .inl rfl⟩

theorem State.arbitrate_voice (s : State) : s.arbitrate.voice = s.voice := by
  obtain ⟨port, load, reads, buffers, eq, -⟩ := s.arbitrate_spec
  rw [eq]

theorem State.arbitrate_audio (s : State) : s.arbitrate.audio = s.audio := by
  obtain ⟨port, load, reads, buffers, eq, -⟩ := s.arbitrate_spec
  rw [eq]

theorem State.arbitrate_zones (s : State) : s.arbitrate.wave.zones = s.wave.zones := by
  obtain ⟨port, load, reads, buffers, eq, -⟩ := s.arbitrate_spec
  rw [eq]

theorem State.arbitrate_eq (s : State) : s.arbitrate = { s with wave := s.arbitrate.wave } := by
  obtain ⟨port, load, reads, buffers, eq, -⟩ := s.arbitrate_spec
  rw [eq]

/-- Nothing outside the Wave Fetch Unit changes (R119). -/
theorem State.arbitrate_withWave (s : State) : { s.arbitrate with wave := s.wave } = s := by
  obtain ⟨port, load, reads, buffers, eq, -⟩ := s.arbitrate_spec
  rw [eq]

theorem State.arbitrate_buffer (i : VoiceIx) (s : State) : s.arbitrate.wave.buffers[i] = s.wave.buffers[i]
    ∨ s.wave.buffers[i].requesting = true ∧ s.arbitrate.wave.buffers[i] = s.wave.buffers[i].fetching := by
  obtain ⟨port, load, reads, buffers, eq, each⟩ := s.arbitrate_spec
  rw [eq]
  exact each i

/-- A buffer that asks for nothing is left as it was. -/
theorem State.arbitrate_buffer_quiet (i : VoiceIx) (s : State) (quiet : s.wave.buffers[i].requesting = false) :
    s.arbitrate.wave.buffers[i] = s.wave.buffers[i] :=
  (s.arbitrate_buffer i).resolve_right fun started => absurd started.1 (by rw [quiet]; exact Bool.false_ne_true)

theorem State.arbitrate_samples (i : VoiceIx) (s : State) :
    s.arbitrate.wave.buffers[i].samples = s.wave.buffers[i].samples := by
  obtain same | ⟨-, started⟩ := s.arbitrate_buffer i
  · rw [same]
  · rw [started]
    rfl

/-! ### A fetch arrives (R117, R120) -/

theorem Voice.inUse_iff (v : Voice) : v.inUse = true ↔ v.state ≠ .free := by
  simp only [Voice.inUse, bne_iff_ne]

theorem fetchArrival_arrives {i : VoiceIx} {generation : Byte} {address burst : Nat} {data : List Byte} (s : State)
    (awake : s.inReset = false) (carries : s.wave.port = some (.fetch i generation address burst))
    (whole : data.length = 2 * burst) : exec (.fetchArrival data) s = .next
      (if s.voice.voices[i].state ≠ .free ∧ s.voice.voices[i].generation = generation then s.fetchTaken i data
        else s).freePort := by
  refine (unlessReset_on (State.fetchArrives data) s awake).trans (congrArg _ ?_)
  simp only [State.fetchArrives, carries, whole, if_true, Bool.and_eq_true, decide_eq_true_eq, Voice.inUse_iff]

/-- The refill condition of a voice in use (R115). -/
theorem refillNeeded_inUse {v : Voice} (b : Buffer) (used : v.state ≠ .free) :
    refillNeeded v b = (decide (b.samples.length ≤ 64) && !b.inFlight && !b.endFetched) := by
  simp only [refillNeeded, Voice.refillable, v.inUse_iff.2 used, Bool.true_and]

theorem State.holdTest_inUse (v : Voice) (s : State) : (s.holdTest v).state ≠ .free := by
  simp only [State.holdTest]
  split <;> nofun

/-- A voice whose buffer has become b, with its priming report if that is due (R95, R96). -/
def State.reported (b : Buffer) (v : Voice) (s : State) : Voice :=
  if v.primed = false ∧ (32 ≤ b.samples.length ∨ b.endFetched = true)
  then (if v.state = .priming then s.holdTest { v with primed := true } else { v with primed := true }) else v

theorem State.reported_inUse (b : Buffer) {v : Voice} (s : State) (used : v.state ≠ .free) :
    (s.reported b v).state ≠ .free := by
  unfold State.reported
  split
  · split
    · exact s.holdTest_inUse _
    · exact used
  · exact used

/-- A matching fetch taken (R117), by what its buffer takes, its voice becomes, and the buffer then asks for. -/
theorem State.fetchTaken_of {i : VoiceIx} {data : List Byte} {s : State} {b c : Buffer} {v : Voice}
    (taken : s.wave.buffers[i].take (s.zoneOf s.voice.voices[i]) (samplesOf data) = b)
    (reported : s.reported b s.voice.voices[i] = v) (examined : { b with requesting := refillNeeded v b } = c) :
    s.fetchTaken i data = (s.onVoice fun e => { e with voices := e.voices.set i v }).onWave
      fun w => { w with buffers := w.buffers.set i c } := by
  subst taken reported examined
  exact s.fetchTaken_eq i data

/-- Settles O44: each priority of the arbiter by its own equation, and the arrival by whether its tag matches. -/
theorem fetchesFillTheirVoice : Obligations.FetchesFillTheirVoice := by
  refine ⟨fun s i generation address burst data awake carries whole => ?_, fun s => ⟨fun p => s.arbitrate_busy p,
    fun free => ⟨fun l load waits => ?_, fun noRead => ⟨fun i asks least => ?_, fun quiet => ⟨?_, ?_⟩⟩⟩⟩⟩
  · intro v b z position samples ended primed held voice buffer
    rw [fetchArrival_arrives s awake carries whole]
    refine ⟨fun stale => ?_, fun used current => ?_⟩
    · rw [if_neg fun matching => stale.elim matching.1 (· matching.2)]
      rfl
    · have taken : s.wave.buffers[i].take z (samplesOf data) = { buffer with requesting := b.requesting } := by
        rw [Buffer.take_eq, samplesOf_eq burst data whole]
        simp only [List.length_map, List.length_range]
        rfl
      have length : buffer.samples.length = b.samples.length + burst := by simp [buffer, samples]
      have reported : s.reported { buffer with requesting := b.requesting } v = voice := by
        unfold State.reported
        rw [length]
        rfl
      have voiceUsed : voice.state ≠ .free := reported ▸ s.reported_inUse _ used
      have asks : refillNeeded voice { buffer with requesting := b.requesting } = buffer.requesting := by
        rw [refillNeeded_inUse _ voiceUsed, length]
        simp only [buffer, Bool.not_false, Bool.and_true]
      rw [if_pos ⟨used, current⟩, State.fetchTaken_of taken reported
        (congrArg (fun r => { buffer with requesting := r }) asks)]
      rfl
  · refine (s.arbitrate_load l free load waits).trans ?_
    cases count : l.zoneCount <;> simp only [Load.nextRead, count] <;> rfl
  · exact s.arbitrate_fetch i free noRead (s.wave.neediest_eq_some i asks least)
  · exact s.arbitrate_idle noRead (s.wave.neediest_eq_none quiet)
  · exact fun d rest noLoad => s.arbitrate_diagnostic d rest free noLoad (s.wave.neediest_eq_none quiet)

end Sys2Proof.Machine
end

section
/-! PROOFS. Note requests that sound nothing (R83, R84, R87, R89, R97), and the envelopes of the voices (R94, R98 to R101). -/

namespace Sys2Proof.Machine

/-! ### The oldest request of a source (R83) -/

theorem voiceStrike_notOldest (source : Source) (key : Key) (level : Byte) (s : State) (awake : s.inReset = false)
    (other : (s.voice.requests source).head? ≠ some (.strike key level)) : exec (.voiceStrike source key level) s = .next s :=
  (unlessReset_on _ s awake).trans (congrArg _ (if_neg other))

theorem voiceStrike_oldest (source : Source) (key : Key) (level : Byte) (s : State) (awake : s.inReset = false)
    (oldest : (s.voice.requests source).head? = some (.strike key level)) : exec (.voiceStrike source key level) s
      = .next ((s.onVoice (VoiceEngine.dropRequest source)).takeStrike source key level) :=
  (unlessReset_on _ s awake).trans (congrArg _ (if_pos oldest))

theorem voiceRelease_notOldest (source : Source) (key : Key) (level : Byte) (s : State) (awake : s.inReset = false)
    (other : (s.voice.requests source).head? ≠ some (.release key level)) : exec (.voiceRelease source key level) s = .next s :=
  (unlessReset_on _ s awake).trans (congrArg _ (if_neg other))

theorem voiceRelease_oldest (source : Source) (key : Key) (level : Byte) (s : State) (awake : s.inReset = false)
    (oldest : (s.voice.requests source).head? = some (.release key level)) : exec (.voiceRelease source key level) s
      = .next ((s.onVoice (VoiceEngine.dropRequest source)).takeRelease source key level) :=
  (unlessReset_on _ s awake).trans (congrArg _ (if_pos oldest))

@[simp] theorem VoiceEngine.dropRequest_voices (source : Source) (v : VoiceEngine) :
    (v.dropRequest source).voices = v.voices := by cases source <;> rfl

@[simp] theorem VoiceEngine.dropRequest_acousticLayer (source : Source) (v : VoiceEngine) :
    (v.dropRequest source).acousticLayer = v.acousticLayer := by cases source <;> rfl

@[simp] theorem VoiceEngine.dropRequest_notReady (source : Source) (v : VoiceEngine) :
    (v.dropRequest source).notReady = v.notReady := by cases source <;> rfl

@[simp] theorem VoiceEngine.dropRequest_noZone (source : Source) (v : VoiceEngine) :
    (v.dropRequest source).noZone = v.noZone := by cases source <;> rfl

/-! ### The stages of a STRIKE that can end it (R84, R87, R89) -/

/-- The live gate is closed to a STRIKE of this source (R84). -/
def State.gateClosed (source : Source) (s : State) : Prop :=
  source = .live ∧ s.rail.state = .opened ∧ s.voice.acousticLayer = false

theorem State.gateClosed_iff (source : Source) (s : State) :
    (decide (source = .live) && !s.gateOpen) = true ↔ s.gateClosed source := by
  simp [State.gateOpen, State.gateClosed]

/-- An entry of the zone table matches a key and a sounding level (R89). -/
def ZoneEntry.fits (key : Key) (level : Nat) (z : ZoneEntry) : Prop := z.key = key.val ∧ z.levelLo ≤ level ∧ level ≤ z.levelHi

theorem zoneFor_eq_none {zones : List ZoneEntry} {key : Key} {level : Nat} (none : ∀ z ∈ zones, ¬ z.fits key level) :
    zoneFor zones key level = .none := by
  rw [zoneFor, List.findIdx?_eq_none_iff]
  intro z mem
  simpa [ZoneEntry.fits, and_assoc] using none z mem

theorem zoneFor_eq_some {zones : List ZoneEntry} {key : Key} {level zone : Nat} {z : ZoneEntry}
    (at_zone : zones[zone]? = some z) (fits : z.fits key level) (first : ∀ n y, n < zone → zones[n]? = some y → ¬ y.fits key level) :
    zoneFor zones key level = some zone := by
  obtain ⟨inside, rfl⟩ := List.getElem?_eq_some_iff.1 at_zone
  rw [zoneFor, List.findIdx?_eq_some_iff_getElem]
  refine ⟨inside, by simpa [ZoneEntry.fits, and_assoc] using fits, fun n before => ?_⟩
  simpa [ZoneEntry.fits, and_assoc] using first n _ before (List.getElem?_eq_getElem (before.trans inside))

theorem State.takeStrike_closed {source : Source} (key : Key) (level : Byte) {s : State} (closed : s.gateClosed source) :
    s.takeStrike source key level = s :=
  if_pos ((s.gateClosed_iff source).2 closed)

theorem State.takeStrike_loading {source : Source} (key : Key) (level : Byte) {s : State} (opened : ¬ s.gateClosed source)
    (loading : s.wave.load.isSome = true) :
    s.takeStrike source key level = s.onVoice fun e => { e with notReady := bump e.notReady } :=
  (if_neg (mt (s.gateClosed_iff source).1 opened)).trans (if_pos loading)

theorem State.takeStrike_noZone {source : Source} {key : Key} {level : Byte} {s : State} (opened : ¬ s.gateClosed source)
    (settled : s.wave.load = none)
    (noZone : ∀ z ∈ s.wave.zones, ¬ z.fits key (soundingLevel level.toNat (s.depthOf source))) :
    s.takeStrike source key level = s.onVoice fun e => { e with noZone := bump e.noZone } := by
  rw [State.takeStrike, if_neg (mt (s.gateClosed_iff source).1 opened), State.loading, settled]
  simp only [Option.isSome_none, Bool.false_eq_true, if_false, zoneFor_eq_none noZone]

/-- A STRIKE that no stage ends (R86): the restrike, the voice, and its start. -/
theorem State.takeStrike_sounds {source : Source} {key : Key} {level : Byte} {zone : Nat} {s : State}
    (opened : ¬ s.gateClosed source) (settled : s.wave.load = none)
    (isZone : zoneFor s.wave.zones key (soundingLevel level.toNat (s.depthOf source)) = some zone) :
    s.takeStrike source key level = (s.restrike source key).takeVoice.2.startVoice (s.restrike source key).takeVoice.1
      source key (soundingLevel level.toNat (s.depthOf source)) zone := by
  rw [State.takeStrike, if_neg (mt (s.gateClosed_iff source).1 opened), State.loading, settled]
  simp only [Option.isSome_none, Bool.false_eq_true, if_false, isZone]

/-- Settles O36: each stage that ends a request leaves the voices, and counts what it refuses. -/
theorem strikesCanEndEarly : Obligations.StrikesCanEndEarly := by
  intro s source key level awake requests taken closed u sounding
  have requestsIs : requests = s.voice.requests source := by cases source <;> rfl
  have takenIs : taken = s.voice.dropRequest source := by cases source <;> rfl
  have closedIs : closed ↔ (s.onVoice (VoiceEngine.dropRequest source)).gateClosed source := by
    simp only [State.gateClosed, State.onVoice_rail, State.onVoice_voice, VoiceEngine.dropRequest_acousticLayer, closed]
  have depthIs : u = (s.onVoice (VoiceEngine.dropRequest source)).depthOf source := by cases source <;> rfl
  rw [requestsIs, takenIs]
  refine ⟨voiceStrike_notOldest source key level s awake, fun oldest => ?_⟩
  rw [voiceStrike_oldest source key level s awake oldest, closedIs]
  refine ⟨fun closed => ?_, fun opened loading inRange => ?_, fun opened settled inRange noZone => ?_⟩
  · rw [State.takeStrike_closed key level closed]
    rfl
  · rw [State.takeStrike_loading key level opened loading, ← bump_eq_min _ inRange]
    simp only [State.onVoice, VoiceEngine.dropRequest_notReady]
  · have noFit (z : ZoneEntry) (mem : z ∈ s.wave.zones) : ¬ z.fits key sounding := fun fits =>
      (noZone z mem).elim (· fits.1) fun outside => outside.elim fits.2.1.not_gt fits.2.2.not_gt
    rw [State.takeStrike_noZone opened settled (depthIs ▸ noFit), ← bump_eq_min _ inRange]
    simp only [State.onVoice, VoiceEngine.dropRequest_noZone]

/-! ### RELEASE (R97) -/

theorem Voice.isFor_iff (source : Source) (key : Key) (v : Voice) :
    v.isFor source key = true ↔ v.state ≠ .free ∧ v.source = source ∧ v.key = key := by
  simp only [Voice.isFor, Bool.and_eq_true, decide_eq_true_eq, v.inUse_iff, and_assoc]

/-- A voice is PRIMING, SOUNDING or DAMPING exactly when it is in use and not FADING (R82). -/
theorem Voice.state_held_iff (v : Voice) : v.state = .priming ∨ v.state = .sounding ∨ v.state = .damping
    ↔ v.state ≠ .free ∧ v.state ≠ .fading := by
  cases v.state <;> decide

/-- Settles O39: the level goes to the voices of the key and source in use that are not FADING. -/
theorem releasesSetTheReleaseLevel : Obligations.ReleasesSetTheReleaseLevel := by
  intro s source key level awake requests taken
  have requestsIs : requests = s.voice.requests source := by cases source <;> rfl
  have takenIs : taken = s.voice.dropRequest source := by cases source <;> rfl
  rw [requestsIs, takenIs]
  refine ⟨voiceRelease_notOldest source key level s awake, fun oldest => ?_⟩
  refine ⟨_, voiceRelease_oldest source key level s awake oldest, fun i => ?_⟩
  simp only [Fin.getElem_fin, mapTable_getElem, State.onVoice_voice, VoiceEngine.dropRequest_voices, Bool.and_eq_true,
    Voice.isFor_iff, bne_iff_ne, Voice.state_held_iff]
  refine if_congr ?_ rfl rfl
  tauto

/-! ### The hold test and the envelope step (R94, R98 to R101) -/

/-- The source of a voice holds it: its key is not idle, or the player holds it (R94). -/
def State.heldBySource (v : Voice) (s : State) : Bool :=
  match v.source with
  | .live => decide (s.scanner.keys[v.key].phase ≠ .idle)
  | .playback => decide (v.key ∈ s.player.held)

theorem State.holdCause_eq (v : Voice) (s : State) : s.holdCause v = if s.heldBySource v = true then .source
    else if s.pedals.mergedSostenuto && decide (v.key ∈ s.pedals.latch) then .latch
    else if s.pedals.mergedLift = 255 then .lift else .none := by
  obtain ⟨_, _, source⟩ := v
  cases source <;> simp [State.holdCause, State.heldBySource, List.contains_eq_mem]

/-- A voice after the hold test and the envelope step of a tick, before it may be freed (R98). -/
def State.steppedVoice (s : State) (v : Voice) : Voice :=
  match v.state with
  | .free => v
  | .priming => v
  | .fading => { v with e := v.e - v.e * 16384 / 65536 }
  | _ => if s.holdCause v = .none
    then { v with
      state := .damping, hold := .none, e := v.e - v.e * dampingRate v.release s.pedals.mergedLift / 65536 }
    else { v with state := .sounding, hold := s.holdCause v }

/-- A tick frees a voice: it is one that steps, and its step leaves it below 64 (R101). -/
def State.endsVoice (s : State) (v : Voice) : Bool :=
  v.state ≠ .free ∧ v.state ≠ .priming ∧ (s.steppedVoice v).e < 64

theorem State.tickVoice_eq (s : State) (v : Voice) :
    s.tickVoice v = if s.endsVoice v = true then (s.steppedVoice v).freed else s.steppedVoice v := by
  cases is : v.state with
  | free | priming | fading => simp [State.tickVoice, State.endsVoice, State.steppedVoice, envelopeStep, is]
  | sounding | damping =>
    by_cases unheld : s.holdCause v = .none <;>
      simp [State.tickVoice, State.endsVoice, State.steppedVoice, State.holdTest, envelopeStep, is, unheld]

theorem State.steppedVoice_inUse (s : State) (v : Voice) : (s.steppedVoice v).inUse = v.inUse := by
  cases is : v.state with
  | free | priming | fading => simp only [State.steppedVoice, Voice.inUse, is]
  | sounding | damping =>
    have used : v.inUse = true := v.inUse_iff.2 (by rw [is]; nofun)
    rw [used]
    simp only [State.steppedVoice, is]
    split <;> rfl

theorem State.tickVoice_frees (s : State) (v : Voice) : (v.inUse && !(s.tickVoice v).inUse) = s.endsVoice v := by
  rw [s.tickVoice_eq]
  cases ends : s.endsVoice v with
  | true =>
    have used : v.inUse = true := v.inUse_iff.2 (of_decide_eq_true ends).1
    rw [if_pos rfl, used]
    rfl
  | false => simp [s.steppedVoice_inUse v]

/-- An envelope tick, voice by voice (R98, R101, R113). -/
theorem State.envelope_getElem (s : State) (i : VoiceIx) :
    s.envelope.voice.voices[i] = (if s.endsVoice s.voice.voices[i] = true then (s.steppedVoice s.voice.voices[i]).freed
      else s.steppedVoice s.voice.voices[i])
    ∧ s.envelope.wave.buffers[i] = if s.endsVoice s.voice.voices[i] = true then Buffer.reset else s.wave.buffers[i] := by
  rw [← s.tickVoice_eq, ← s.tickVoice_frees]
  simp [State.envelope]

theorem State.perfTick_running (s : State) (runs : s.rail.moveTimer ≠ some 0) : s.perfTick
    = { s with perfClock := s.perfClock + 1, rail := { s.rail with moveTimer := runDown s.rail.moveTimer } } := by
  have notDue : s.takeMoveTimer = s := if_neg fun due => runs (of_decide_eq_true due)
  simp only [State.perfTick, notDue, State.onRail]

/-- Settles O40: each voice is its hold test and step, freed below 64, and the clock and the move timer have run. -/
theorem ticksStepTheEnvelopes : Obligations.TicksStepTheEnvelopes := by
  intro s awake runs
  refine ⟨s.perfTick.envelope.voice.voices, s.perfTick.envelope.wave.buffers, ?_, fun i => ?_⟩
  · refine (unlessReset_on (fun s => s.perfTick.envelope) s awake).trans ?_
    simp only [s.perfTick_running runs]
    rfl
  · intro v bySource cause rate stepped ends
    have causeIs : s.perfTick.holdCause v = cause := by
      rw [State.holdCause_eq, s.perfTick_running runs]
      rfl
    have steppedIs : stepped = s.perfTick.steppedVoice v := by
      simp only [stepped, State.steppedVoice, causeIs]
      rw [s.perfTick_running runs]
      cases v.state <;> rfl
    have endsIs : ends = s.perfTick.endsVoice v := by
      simp only [ends, State.endsVoice, steppedIs]
    have each := s.perfTick.envelope_getElem i
    rw [endsIs, steppedIs]
    simp only [s.perfTick_running runs] at each ⊢
    exact each

/-! ### Envelopes over many steps (R99, R100) -/

/-- One step of a FADING voice's e (R100). -/
def fadeStep (e : Nat) : Nat := e - e * 16384 / 65536

theorem envelopeStep_fading (lift : Nat) {v : Voice} (is : v.state = .fading) :
    envelopeStep lift v = { v with e := fadeStep v.e } := by
  simp only [envelopeStep, is, fadeStep]

theorem envelopeStep_damping (lift : Nat) {v : Voice} (is : v.state = .damping) :
    envelopeStep lift v = { v with e := v.e - v.e * dampingRate v.release lift / 65536 } := by
  simp only [envelopeStep, is]

theorem envelopeStep_iterate_fading (lift n : Nat) {v : Voice} (is : v.state = .fading) :
    (envelopeStep lift)^[n] v = { v with e := fadeStep^[n] v.e } := by
  induction n generalizing v with
  | zero => rfl
  | succ n ih =>
    rw [Function.iterate_succ_apply, envelopeStep_fading lift is]
    exact ih is

/-- From 65,535, e falls below 64 at the 25th step and not before (R100). -/
theorem fadeStep_iterate : (∀ n, n ≤ 24 → 64 ≤ fadeStep^[n] 65535) ∧ fadeStep^[25] 65535 < 64 := by decide

/-- Settles O41: a step takes a part of e that is at least 1, or less than 1 and so none. -/
theorem envelopesFallUntilFreed : Obligations.EnvelopesFallUntilFreed := by
  refine ⟨fun lift v is above => ?_, fun lift v is => ⟨fun above fast => ?_, fun slow => ?_⟩, fun lift v is full => ⟨?_, ?_⟩⟩
  · rw [envelopeStep_fading lift is]
    simp only [fadeStep]
    omega
  · have taken : 1 ≤ v.e * dampingRate v.release lift / 65536 :=
      (Nat.one_le_div_iff (by decide)).2 (Nat.mul_le_mul above fast)
    rw [envelopeStep_damping lift is]
    exact Nat.sub_lt (by omega) taken
  · rw [envelopeStep_damping lift is, Nat.div_eq_of_lt slow]
    rfl
  · intro n early
    rw [envelopeStep_iterate_fading lift n is, full]
    exact fadeStep_iterate.1 n early
  · rw [envelopeStep_iterate_fading lift 25 is, full]
    exact fadeStep_iterate.2

end Sys2Proof.Machine
end

section
/-! PROOFS. The victim of a steal (R92): the search for the candidate of least cost, and the three rules. -/

namespace Sys2Proof.Machine

/-! ### The candidate of least cost (R92) -/

/-- A voice is no worse a choice than another (R92): it costs less, or as much and is not numbered higher. -/
def costsNoMore (cost : VoiceIx → Nat) (i j : VoiceIx) : Prop := cost i < cost j ∨ cost i = cost j ∧ i ≤ j

/-- A search's answer over the voices of a list: none where no voice is a candidate, else the candidate that costs no more
than any other. -/
def Chooses (candidate : VoiceIx → Bool) (cost : VoiceIx → Nat) (voices : List VoiceIx) : Option VoiceIx → Prop
  | none => ∀ j ∈ voices, candidate j = false
  | some i => i ∈ voices ∧ candidate i = true ∧ ∀ j ∈ voices, candidate j = true → costsNoMore cost i j

/-- One voice's part in the search for the least cost (R92). -/
def cheaper (candidate : VoiceIx → Bool) (cost : VoiceIx → Nat) (best : Option VoiceIx) (i : VoiceIx) : Option VoiceIx :=
  if candidate i then
    match best with
    | none => some i
    | some j => if cost i < cost j then some i else best
  else best

section
variable {candidate : VoiceIx → Bool} {cost : VoiceIx → Nat} {voices : List VoiceIx}

/-- A voice numbered above all of a list leaves the answer right. -/
theorem Chooses.append {best : Option VoiceIx} {a : VoiceIx} (chosen : Chooses candidate cost voices best)
    (above : ∀ j ∈ voices, j < a) : Chooses candidate cost (voices ++ [a]) (cheaper candidate cost best a) := by
  cases is : candidate a with
  | false =>
    simp only [cheaper, is, Bool.false_eq_true, if_false]
    cases best with
    | none => simpa [Chooses, is, or_imp, forall_and] using chosen
    | some i => simpa [Chooses, is, or_imp, forall_and] using ⟨.inl chosen.1, chosen.2⟩
  | true =>
    simp only [cheaper, is, if_true]
    cases best with
    | none =>
      refine ⟨by simp, is, fun j mem isJ => ?_⟩
      obtain mem | rfl := by simpa using mem
      · exact absurd isJ (by rw [chosen j mem]; exact Bool.false_ne_true)
      · exact .inr ⟨rfl, le_rfl⟩
    | some i =>
      obtain ⟨memI, isI, least⟩ := chosen
      by_cases less : cost a < cost i
      · simp only [less, if_true]
        refine ⟨by simp, is, fun j mem isJ => ?_⟩
        obtain mem | rfl := by simpa using mem
        · have := least j mem isJ
          exact .inl (by unfold costsNoMore at this; omega)
        · exact .inr ⟨rfl, le_rfl⟩
      · simp only [less, if_false]
        refine ⟨by simp [memI], isI, fun j mem isJ => ?_⟩
        obtain mem | rfl := by simpa using mem
        · exact least j mem isJ
        · exact (lt_or_eq_of_le (not_lt.1 less)).imp_right fun same => ⟨same, (above i memI).le⟩

theorem Chooses.fold (up : voices.Pairwise (· < ·)) :
    Chooses candidate cost voices (voices.foldl (cheaper candidate cost) none) := by
  induction voices using List.reverseRecOn with
  | nil => exact nofun
  | append_singleton voices a ih =>
    rw [List.foldl_append]
    obtain ⟨upTo, -, above⟩ := List.pairwise_append.1 up
    exact (ih upTo).append fun j mem => above j mem a (List.mem_singleton_self a)

theorem leastOf_chooses (candidate : VoiceIx → Bool) (cost : VoiceIx → Nat) :
    Chooses candidate cost allVoices (leastOf candidate cost) :=
  Chooses.fold (List.pairwise_lt_finRange 96)

theorem mem_allVoices (i : VoiceIx) : i ∈ allVoices := List.mem_finRange i

theorem leastOf_eq_none (no : ∀ i, candidate i = false) : leastOf candidate cost = none := by
  have chosen := leastOf_chooses candidate cost
  cases found : leastOf candidate cost with
  | none => rfl
  | some i =>
    rw [found] at chosen
    exact absurd chosen.2.1 (by rw [no i]; exact Bool.false_ne_true)

/-- With a candidate, the search finds the one that costs no more than any other. -/
theorem leastOf_spec (any : ∃ i, candidate i = true) : ∃ i, leastOf candidate cost = some i ∧ candidate i = true
    ∧ ∀ j, candidate j = true → costsNoMore cost i j := by
  have chosen := leastOf_chooses candidate cost
  cases found : leastOf candidate cost with
  | none =>
    rw [found] at chosen
    obtain ⟨i, is⟩ := any
    exact absurd is (by rw [chosen i (mem_allVoices i)]; exact Bool.false_ne_true)
  | some i =>
    rw [found] at chosen
    exact ⟨i, rfl, chosen.2.1, fun j => chosen.2.2 j (mem_allVoices j)⟩

end

/-! ### The victim (R92) -/

/-- Settles O38: the search by each rule finds the least cost, and by the third the least cost is the greatest age. -/
theorem stealsFollowTheThreeRules : Obligations.StealsFollowTheThreeRules := by
  intro s _ v age least
  have none_of {st : VoiceState} (no : ∀ i, (v i).state ≠ st) :
      leastOf (fun i => (v i).state = st) (fun i => (v i).e) = none := leastOf_eq_none fun i => decide_eq_false (no i)
  have some_of {st : VoiceState} (any : ∃ i, (v i).state = st) (victim : ∀ i,
      leastOf (fun i => (v i).state = st) (fun i => (v i).e) = some i → s.victim = i) : least st := by
    obtain ⟨i, found, is, best⟩ := leastOf_spec (candidate := fun i => (v i).state = st) (cost := fun i => (v i).e)
      (any.imp fun _ => decide_eq_true)
    simp only [least, victim i found]
    exact ⟨of_decide_eq_true is, fun j isJ => best j (decide_eq_true isJ)⟩
  refine ⟨fun fading => some_of fading fun i found => ?_, fun noFading damping => some_of damping fun i found => ?_,
    fun held => ?_⟩
  · unfold State.victim
    simp only [v] at found
    simp only [found]
  · have noFading := none_of noFading
    unfold State.victim
    simp only [v] at found noFading
    simp only [found, noFading]
  · have noFading := none_of (st := .fading) fun i => by obtain is | is := held i <;> rw [is] <;> nofun
    have noDamping := none_of (st := .damping) fun i => by obtain is | is := held i <;> rw [is] <;> nofun
    obtain ⟨i, found, -, best⟩ := leastOf_spec
      (candidate := fun i => decide ((v i).state = .priming) || decide ((v i).state = .sounding))
      (cost := fun i => 4294967295 - age i) ⟨0, by simpa using held 0⟩
    have victim : s.victim = i := by
      unfold State.victim
      simp only [v] at noFading noDamping
      simp only [noFading, noDamping]
      exact congrArg (·.getD 0) found
    rw [victim]
    intro j
    have inRange (k : VoiceIx) : age k < 4294967296 := BitVec.isLt _
    have old := inRange i
    have older := inRange j
    obtain (less : 4294967295 - age i < 4294967295 - age j) | ⟨(same : 4294967295 - age i = 4294967295 - age j), first⟩ :=
      best j (by simpa using held j)
    · exact .inl (by omega)
    · exact .inr ⟨by omega, first⟩

end Sys2Proof.Machine
end

section
/-! PROOFS. A STRIKE that sounds (R88 to R93, R95, R113 to R115): the restrike, the voice it takes, and that voice's start. -/

namespace Sys2Proof.Machine

/-! ### The restrike (R90) -/

/-- A voice after a restrike of a key of a source (R90). -/
def Voice.restruck (source : Source) (key : Key) (v : Voice) : Voice :=
  if v.isFor source key then
    if v.state = .fading then v.freed else { v with state := .fading, hold := .none }
  else v

/-- A voice's buffer after a restrike (R90, R113). -/
def Buffer.restruck (source : Source) (key : Key) (v : Voice) (b : Buffer) : Buffer :=
  if v.isFor source key && v.state = .fading then Buffer.reset else b

/-- A restrike empties the buffer of a voice of the key that was FADING, which it frees (R90, R113). -/
theorem Buffer.restruck_eq (source : Source) (key : Key) (v : Voice) (b : Buffer) : b.restruck source key v =
    if v.state = .fading ∧ v.source = source ∧ v.key = key then Buffer.reset else b := by
  refine if_congr ?_ rfl rfl
  rw [Bool.and_eq_true, decide_eq_true_eq, v.isFor_iff]
  constructor
  · exact fun ⟨⟨_, ofKey⟩, fading⟩ => ⟨fading, ofKey⟩
  · exact fun ⟨fading, ofKey⟩ => ⟨⟨by rw [fading]; nofun, ofKey⟩, fading⟩

theorem State.restrike_eq (source : Source) (key : Key) (s : State) : s.restrike source key = { s with
    voice := { s.voice with voices := mapTable (Voice.restruck source key) s.voice.voices }
    wave := { s.wave with
      buffers := mapTableIx (fun i b => b.restruck source key s.voice.voices[i]) s.wave.buffers } } := by
  simp only [State.restrike, State.onVoice, State.onWave, Buffer.restruck]
  rfl

theorem Voice.restruck_generation (source : Source) (key : Key) (v : Voice) :
    (v.restruck source key).generation = v.generation := by
  unfold Voice.restruck
  split
  · split <;> rfl
  · rfl

/-! ### The voice that is taken (R91, R92) -/

/-- The victim depends on the voices and the clock alone (R92). -/
theorem State.victim_congr {s t : State} (voices : s.voice.voices = t.voice.voices) (clock : s.perfClock = t.perfClock) :
    s.victim = t.victim := by
  simp only [State.victim, voices, clock]

/-- With a FREE voice, the lowest-numbered one is taken (R91). -/
theorem State.takeVoice_free (s : State) (free : ∃ j : VoiceIx, s.voice.voices[j].state = .free) :
    ∃ i : VoiceIx, s.takeVoice = (i, s) ∧ s.voice.voices[i].state = .free
      ∧ ∀ j : VoiceIx, j < i → s.voice.voices[j].state ≠ .free := by
  obtain ⟨j, is⟩ := free
  obtain ⟨i, found⟩ := Option.isSome_iff_exists.1
    (List.find?_isSome.2 ⟨j, mem_allVoices j, decide_eq_true is⟩ :
      (allVoices.find? fun i => s.voice.voices[i].state = .free).isSome = true)
  obtain ⟨isFree, n, inside, rfl, first⟩ := List.find?_eq_some_iff_getElem.1 found
  refine ⟨_, by simp only [State.takeVoice, found], of_decide_eq_true isFree, fun j below => ?_⟩
  simpa [allVoices] using first j.val (by simpa [allVoices, Fin.lt_def] using below)

theorem State.takeVoice_steals (s : State) (used : ∀ j : VoiceIx, s.voice.voices[j].state ≠ .free) :
    s.takeVoice = (s.victim, s.freeVoice s.victim) := by
  have none : (allVoices.find? fun i => s.voice.voices[i].state = .free) = none :=
    List.find?_eq_none.2 fun i _ => by simpa using used i
  simp only [State.takeVoice, none]

/-! ### The start of a voice (R93, R95, R114) -/

/-- The record of a voice at its allocation (R93). -/
def Voice.allocated (source : Source) (key : Key) (level zone : Nat) (now : Time) (v : Voice) : Voice := {
  state := .priming, key := key, source := source, level := level, gain := gainOf level, zone := zone, position := 0
  e := 65535, release := 64, start := now, generation := v.generation + 1, primed := false, hold := .none }

/-- Nothing of a zone is ever fetched: its loop is off and its length 0 (R95, R114). -/
def ZoneEntry.silent (z : ZoneEntry) : Bool := !z.loop && z.length = 0

/-- The buffer of a voice that starts in a zone, with the refill condition examined (R114, R115). -/
def Buffer.started (z : ZoneEntry) : Buffer := ⟨[], 0, z.silent, !z.silent, false⟩

/-- The record of a voice that starts in a zone: primed at once where nothing is fetched (R95). -/
def State.startedVoice (z : ZoneEntry) (v : Voice) (s : State) : Voice :=
  if z.silent = true then s.holdTest { v with primed := true } else v

/-- The state with voice i's record and buffer replaced. -/
def State.withVoice (i : VoiceIx) (v : Voice) (b : Buffer) (s : State) : State :=
  { s with
    voice := { s.voice with voices := s.voice.voices.set i v }
    wave := { s.wave with buffers := s.wave.buffers.set i b } }

theorem State.withVoice_twice (i : VoiceIx) (v w : Voice) (b c : Buffer) (s : State) :
    (s.withVoice i v b).withVoice i w c = s.withVoice i w c := by
  simp only [State.withVoice, Vector.set_set]

theorem State.withVoice_primingReport (i : VoiceIx) (v : Voice) (b : Buffer) (s : State) (is : v.state = .priming) :
    (s.withVoice i v b).primingReport i = s.withVoice i (s.holdTest { v with primed := true }) b := by
  simp [State.withVoice, State.primingReport, State.onVoice, updateAt, is]
  rfl

theorem State.withVoice_examineRefill (i : VoiceIx) (v : Voice) (b : Buffer) (s : State) :
    (s.withVoice i v b).examineRefill i = s.withVoice i v { b with requesting := refillNeeded v b } := by
  simp [State.withVoice, State.examineRefill, State.onWave, updateAt]

theorem State.freeVoice_eq (i : VoiceIx) (s : State) : s.freeVoice i = s.withVoice i s.voice.voices[i].freed Buffer.reset := rfl

theorem ZoneEntry.silent_iff (z : ZoneEntry) : z.silent = true ↔ ¬ (z.loop = true ∨ z.length ≠ 0) := by
  simp [ZoneEntry.silent]

/-- The buffer of a voice that starts: its end is fetched, or else it asks for samples (R95, R114, R115). -/
theorem Buffer.started_eq (z : ZoneEntry) : Buffer.started z
    = ⟨[], 0, decide (z.loop = false ∧ z.length = 0), decide (z.loop = true ∨ z.length ≠ 0), false⟩ := by
  simp [Buffer.started, ZoneEntry.silent, Bool.decide_or]

theorem State.startVoice_eq {zone : Nat} {z : ZoneEntry} (i : VoiceIx) (source : Source) (key : Key) (level : Nat) (s : State)
    (at_zone : s.wave.zones[zone]? = some z) : s.startVoice i source key level zone =
      (s.withVoice i (s.startedVoice z (s.voice.voices[i].allocated source key level zone s.perfClock))
        (Buffer.started z)).arbitrate := by
  let v := s.voice.voices[i].allocated source key level zone s.perfClock
  let b : Buffer := { Buffer.reset with endFetched := z.silent }
  have zoneIs : s.zoneOf (s.voice.voices.set i v)[i] = z := by
    simp [State.zoneOf, show v.zone = zone from rfl, at_zone]
  have begins : s.startVoice i source key level zone = ((if z.silent = true then (s.withVoice i v b).primingReport i
      else s.withVoice i v b).examineRefill i).arbitrate := by
    simp only [b]
    rw [← zoneIs]
    rfl
  rw [begins]
  unfold State.startedVoice
  split
  · next silent =>
    rw [s.withVoice_primingReport i v b rfl, State.withVoice_examineRefill, refillNeeded_inUse _ (s.holdTest_inUse _)]
    simp only [b, Buffer.started, Buffer.reset, silent]
    rfl
  · next heard =>
    rw [State.withVoice_examineRefill, refillNeeded_inUse b (by nofun)]
    simp only [b, Buffer.started, Buffer.reset, heard]
    rfl

theorem State.startVoice_freeVoice {zone : Nat} {z : ZoneEntry} (i : VoiceIx) (source : Source) (key : Key) (level : Nat)
    (s : State) (at_zone : s.wave.zones[zone]? = some z) :
    (s.freeVoice i).startVoice i source key level zone = s.startVoice i source key level zone := by
  have freed : (s.withVoice i s.voice.voices[i].freed Buffer.reset).voice.voices[i] = s.voice.voices[i].freed := by
    simp [State.withVoice]
  rw [State.startVoice_eq i source key level s at_zone, State.startVoice_eq i source key level (s.freeVoice i) at_zone,
    State.freeVoice_eq, State.withVoice_twice, freed]
  rfl

/-- The voice that is taken starts as it stands after the restrike: the victim's freeing leaves nothing else (R91, R93). -/
theorem State.takeVoice_startVoice {zone : Nat} {z : ZoneEntry} (source : Source) (key : Key) (level : Nat) (s : State)
    (at_zone : s.wave.zones[zone]? = some z) : ∃ i : VoiceIx,
      s.takeVoice.2.startVoice s.takeVoice.1 source key level zone =
        (s.withVoice i (s.startedVoice z (s.voice.voices[i].allocated source key level zone s.perfClock))
          (Buffer.started z)).arbitrate
      ∧ ((∃ j : VoiceIx, s.voice.voices[j].state = .free) → s.voice.voices[i].state = .free
        ∧ ∀ j : VoiceIx, j < i → s.voice.voices[j].state ≠ .free)
      ∧ ((∀ j : VoiceIx, s.voice.voices[j].state ≠ .free) → i = s.victim) := by
  by_cases free : ∃ j : VoiceIx, s.voice.voices[j].state = .free
  · obtain ⟨i, takes, isFree, first⟩ := s.takeVoice_free free
    refine ⟨i, ?_, fun _ => ⟨isFree, first⟩, fun used => absurd isFree (used i)⟩
    rw [takes]
    exact s.startVoice_eq i source key level at_zone
  · have used : ∀ j : VoiceIx, s.voice.voices[j].state ≠ .free := not_exists.1 free
    refine ⟨s.victim, ?_, fun free' => absurd free' free, fun _ => rfl⟩
    rw [s.takeVoice_steals used]
    exact (s.startVoice_freeVoice _ source key level at_zone).trans (s.startVoice_eq _ source key level at_zone)

theorem State.startedVoice_fetches {z : ZoneEntry} (v : Voice) (s : State) (fetches : z.loop = true ∨ z.length ≠ 0) :
    s.startedVoice z v = v :=
  if_neg fun silent => z.silent_iff.1 silent fetches

theorem State.startedVoice_silent {z : ZoneEntry} (v : Voice) (s : State) (silent : ¬ (z.loop = true ∨ z.length ≠ 0)) :
    s.startedVoice z v = s.holdTest { v with primed := true } :=
  if_pos (z.silent_iff.2 silent)

section
variable {z : ZoneEntry} {i : VoiceIx} {s : State} (starts : s.wave.buffers[i] = Buffer.started z)
include starts

/-- The arbiter may start the first fetch of a voice that starts (R115, R119). -/
theorem State.arbitrate_started_fetches (fetches : z.loop = true ∨ z.length ≠ 0) :
    let b := s.arbitrate.wave.buffers[i]
    b.samples = [] ∧ b.fetchPosition = 0 ∧ (b.requesting = true ∨ b.inFlight = true) := by
  have asks : (Buffer.started z).requesting = true := by simp only [Buffer.started_eq, fetches, decide_true]
  obtain same | ⟨-, started⟩ := s.arbitrate_buffer i
  · rw [same, starts]
    exact ⟨rfl, rfl, .inl asks⟩
  · rw [started, starts]
    exact ⟨rfl, rfl, .inr rfl⟩

theorem State.arbitrate_started_silent (silent : ¬ (z.loop = true ∨ z.length ≠ 0)) :
    s.arbitrate.wave.buffers[i] = ⟨[], 0, true, false, false⟩ := by
  have started : Buffer.started z = ⟨[], 0, true, false, false⟩ := by
    simp only [Buffer.started, z.silent_iff.2 silent, Bool.not_true]
  rw [s.arbitrate_buffer_quiet i (by rw [starts, started]), starts, started]

end

/-- The buffers of a STRIKE that sounds: that of the voice that starts, those of the voices freed, and the others (R90, R113,
R114). -/
theorem restruck_set_started (source : Source) (key : Key) (i : VoiceIx) (z : ZoneEntry) (voices : Vector Voice 96)
    (buffers : Vector Buffer 96) :
    (mapTableIx (fun j b => b.restruck source key voices[j]) buffers).set i (Buffer.started z)
      = Vector.ofFn fun j : VoiceIx =>
      if j = i then ⟨[], 0, decide (z.loop = false ∧ z.length = 0), decide (z.loop = true ∨ z.length ≠ 0), false⟩
      else if voices[j].state = .fading ∧ voices[j].source = source ∧ voices[j].key = key then Buffer.reset
      else buffers[j] := by
  refine Vector.ext fun j inside => ?_
  rw [Vector.getElem_ofFn, Vector.getElem_set, mapTableIx_getElem, Buffer.started_eq, Buffer.restruck_eq]
  refine if_congr ?_ rfl rfl
  rw [Fin.ext_iff, eq_comm]

/-! ### The whole STRIKE (R86) -/

/-- A STRIKE that sounds (R86): after the restrike, the voice taken starts in the matching zone, and the port's arbiter
chooses. -/
theorem State.takeStrike_starts {source : Source} {key : Key} {level : Byte} {zone : Nat} {z : ZoneEntry} {s : State}
    (opened : ¬ s.gateClosed source) (settled : s.wave.load = none)
    (isZone : zoneFor s.wave.zones key (soundingLevel level.toNat (s.depthOf source)) = some zone)
    (at_zone : s.wave.zones[zone]? = some z) : ∃ i : VoiceIx,
      let struck := s.restrike source key
      let sounding := soundingLevel level.toNat (s.depthOf source)
      s.takeStrike source key level =
        (struck.withVoice i (struck.startedVoice z (struck.voice.voices[i].allocated source key sounding zone struck.perfClock))
          (Buffer.started z)).arbitrate
      ∧ ((∃ j : VoiceIx, struck.voice.voices[j].state = .free) → struck.voice.voices[i].state = .free
        ∧ ∀ j : VoiceIx, j < i → struck.voice.voices[j].state ≠ .free)
      ∧ ((∀ j : VoiceIx, struck.voice.voices[j].state ≠ .free) → i = struck.victim) := by
  have zones : (s.restrike source key).wave.zones[zone]? = some z := by
    rw [State.restrike_eq]
    exact at_zone
  obtain ⟨i, starts, taken⟩ :=
    (s.restrike source key).takeVoice_startVoice source key (soundingLevel level.toNat (s.depthOf source)) zones
  exact ⟨i, (State.takeStrike_sounds opened settled isZone).trans starts, taken⟩

/-- Settles O37: the restrike, the voice it leaves to be taken, and that voice's start, after which the port's arbiter changes
no voice, and no buffer but by a fetch's start. -/
theorem strikesFillTheLowestFreeVoice : Obligations.StrikesFillTheLowestFreeVoice := by
  intro s source key level zone z awake requests taken u sounding fits left faded bySource cause oldest opened settled at_zone
    isFit first
  have takenIs : taken = s.voice.dropRequest source := by cases source <;> rfl
  have requestIs : s.onVoice (VoiceEngine.dropRequest source) = { s with voice := taken } := by rw [takenIs]; rfl
  have gate : ¬ State.gateClosed source { s with voice := taken } := by
    rintro ⟨live, isOpen, noLayer⟩
    have layer := opened live isOpen
    simp only [takenIs, VoiceEngine.dropRequest_acousticLayer, layer] at noLayer
    exact Bool.false_ne_true noLayer.symm
  have depthIs : u = State.depthOf { s with voice := taken } source := by cases source <;> rfl
  have isZone : zoneFor s.wave.zones key (soundingLevel level.toNat u) = some zone := zoneFor_eq_some at_zone isFit first
  obtain ⟨i, starts, lowest, victim⟩ := State.takeStrike_starts (level := level) gate settled (depthIs ▸ isZone) at_zone
  have runs := (voiceStrike_oldest source key level s awake (by cases source <;> exact oldest))
  rw [requestIs, starts] at runs
  have leftIs (j : VoiceIx) : left j = s.voice.voices[j].restruck source key :=
    (if_congr (Voice.isFor_iff source key s.voice.voices[j]) rfl rfl).symm
  have struckIs : State.restrike source key { s with voice := taken } = { s with
      voice := { taken with voices := Vector.ofFn left }
      wave := { s.wave with
        buffers := mapTableIx (fun j b => b.restruck source key s.voice.voices[j]) s.wave.buffers } } := by
    have voices : taken.voices = s.voice.voices := by rw [takenIs, VoiceEngine.dropRequest_voices]
    simp only [State.restrike_eq, voices, funext leftIs]
    rfl
  have leftAt (j : VoiceIx) : (Vector.ofFn left)[j] = left j := by simp
  have sounds : soundingLevel level.toNat (State.depthOf { s with voice := taken } source) = sounding := by
    rw [← depthIs]
    rfl
  rw [struckIs, sounds] at runs
  rw [struckIs] at lowest victim
  simp only [leftAt] at lowest victim runs
  generalize startedIs : State.startedVoice z _ _ = v at runs
  generalize beginIs : State.withVoice i v _ _ = begins at runs
  have shape : begins = { s with
      voice := { taken with voices := (Vector.ofFn left).set i v }
      wave := { s.wave with buffers := begins.wave.buffers } } := by
    rw [← beginIs]
    simp only [State.withVoice]
  have buffersAre := (congrArg (fun t : State => t.wave.buffers) beginIs.symm).trans
    (restruck_set_started source key i z s.voice.voices s.wave.buffers)
  have voiceAt : begins.voice.voices[i] = v := by
    rw [shape]
    simp
  have bufferAt : begins.wave.buffers[i] = Buffer.started z := by
    rw [← beginIs, State.withVoice]
    simp
  refine ⟨i, begins.arbitrate, runs, ?_, lowest, fun used => (victim used).trans (State.victim_congr rfl rfl),
    fun j other => ?_, ?_, ?_, ?_⟩
  · have wave := begins.arbitrate_eq
    rw [State.arbitrate_voice]
    generalize begins.arbitrate.wave = w at wave ⊢
    rw [wave, shape]
  · rw [State.arbitrate_voice, shape]
    simp [Fin.val_ne_of_ne other.symm]
  · rw [State.arbitrate_zones, shape]
  · rw [← buffersAre]
    refine congrArg State.arbitrate ?_
    have begin := begins.arbitrate_withWave
    rw [shape] at begin ⊢
    exact begin.symm
  · intro filled
    have allocated : (left i).allocated source key sounding zone s.perfClock = filled := by
      rw [leftIs, Voice.allocated, Voice.restruck_generation]
      rfl
    rw [allocated] at startedIs
    rw [State.arbitrate_voice, voiceAt, ← startedIs]
    by_cases fetches : z.loop = true ∨ z.length ≠ 0
    · rw [if_pos fetches, State.startedVoice_fetches _ _ fetches]
      exact ⟨rfl, State.arbitrate_started_fetches bufferAt fetches⟩
    · rw [if_neg fetches, State.startedVoice_silent _ _ fetches, State.arbitrate_started_silent bufferAt fetches,
        State.holdTest, State.holdCause_eq]
      exact ⟨rfl, rfl⟩

end Sys2Proof.Machine
end

section
/-! PROOFS. An audio frame (R102, R103, R115, R118, R121, R125 to R130, R132): what each voice gives and becomes, the buses and
slots, and the bits of the frame sent. -/

namespace Sys2Proof.Machine

/-! ### The bits of a frame (R125) -/

theorem length_slotBits (value : Int) : (slotBits value).length = 32 := by simp [slotBits]

theorem slotBits_getElem (value : Int) (k : Fin 32) : (slotBits value)[k.val]?
    = some (decide (k.val < 24) && (BitVec.ofInt 24 value).getMsbD k.val) := by
  by_cases value_bit : k.val < 24
  · rw [slotBits, List.getElem?_append_left (by simpa using value_bit)]
    simp [value_bit]
  · rw [slotBits, List.getElem?_append_right (by simpa using value_bit), List.getElem?_replicate]
    simp [value_bit]
    omega

/-- Of equal parts laid end to end, the bit at an offset in a part. -/
theorem slots_getElem (values : List Int) (n k : Nat) (inSlot : k < 32) :
    (values.flatMap slotBits)[32 * n + k]? = values[n]?.bind fun value => (slotBits value)[k]? := by
  induction values generalizing n with
  | nil => simp
  | cons value rest ih =>
    cases n with
    | zero =>
      rw [List.flatMap_cons, List.getElem?_append_left (by rw [length_slotBits]; omega)]
      simp
    | succ n =>
      rw [List.flatMap_cons, List.getElem?_append_right (by rw [length_slotBits]; omega), length_slotBits,
        show 32 * (n + 1) + k - 32 = 32 * n + k by omega, ih n]
      simp

theorem length_slots (values : List Int) : (values.flatMap slotBits).length = 32 * values.length := by
  simp [List.length_flatMap, length_slotBits, Nat.mul_comm]

theorem AudioPort.length_frameBits (a : AudioPort) : a.frameBits.length = 256 := by
  rw [AudioPort.frameBits, length_slots, Vector.length_toList]

theorem AudioPort.frameBits_getElem (a : AudioPort) (n : Fin 8) (k : Fin 32) : a.frameBits[32 * n.val + k.val]?
    = some (decide (k.val < 24) && (BitVec.ofInt 24 a.sent[n]).getMsbD k.val) := by
  rw [AudioPort.frameBits, slots_getElem _ _ _ k.isLt, List.getElem?_eq_getElem (by simp), Option.bind_some,
    slotBits_getElem]
  simp

theorem AudioPort.frameBits_silent (a : AudioPort) (silent : a.sent = Vector.replicate 8 0) :
    a.frameBits = List.replicate 256 false := by
  have zero : slotBits 0 = List.replicate 32 false := by decide
  rw [AudioPort.frameBits, silent, Vector.toList_replicate, List.flatMap_replicate, zero,
    List.flatten_replicate_replicate]

theorem frameClockBits_getElem (n : Fin 256) : frameClockBits[n.val]? = some (decide (n.val = 0)) := by
  obtain ⟨n, inFrame⟩ := n
  cases n with
  | zero => rfl
  | succ n =>
    rw [frameClockBits, List.getElem?_cons_succ, List.getElem?_replicate_of_lt (by omega)]
    rfl

/-! ### What a voice gives (R102, R103, R118, R121) -/

theorem Voice.givesOutput_eq (v : Voice) : v.givesOutput
    = decide (v.state = .sounding ∨ v.state = .damping ∨ v.state = .fading ∧ v.primed = true) := by
  cases is : v.state <;> simp [Voice.givesOutput, is]

section
variable (z : ZoneEntry) {v : Voice} {b : Buffer}

theorem frameVoice_mute (mute : v.givesOutput = false) : frameVoice z v b = (0, v, b, false) := by
  simp only [frameVoice, mute, Bool.false_eq_true, if_false]

theorem frameVoice_starved (gives : v.givesOutput = true) (empty : b.samples = []) (more : b.endFetched = false) :
    frameVoice z v b = (0, v, b, true) := by
  simp only [frameVoice, gives, empty, more, Bool.false_eq_true, if_false, if_true]

theorem frameVoice_ended (gives : v.givesOutput = true) (empty : b.samples = []) (ended : b.endFetched = true) :
    frameVoice z v b = (0, v.freed, Buffer.reset, false) := by
  simp only [frameVoice, gives, empty, ended, if_true]

/-- The last sample of a zone whose end is fetched is taken, and the voice freed (R118). -/
theorem frameVoice_last {w : Int} (gives : v.givesOutput = true) (last : b.samples = [w]) (ended : b.endFetched = true) :
    frameVoice z v b
      = (voiceOutput w v.gain v.e, { v.freed with position := nextPosition z v.position }, Buffer.reset, false) := by
  simp only [frameVoice, gives, last, ended, if_true, List.isEmpty_nil, Bool.and_self]
  rfl

/-- A voice that gives output is in use (R102). -/
theorem Voice.givesOutput_used (gives : v.givesOutput = true) : v.state ≠ .free := by
  intro is
  simp [Voice.givesOutput, is] at gives

theorem frameVoice_takes {w : Int} {rest : List Int} (gives : v.givesOutput = true) (holds : b.samples = w :: rest)
    (more : ¬ (rest = [] ∧ b.endFetched = true)) : frameVoice z v b
      = (voiceOutput w v.gain v.e, { v with position := nextPosition z v.position }, { b with
          samples := rest
          requesting := decide (rest.length ≤ 64) && !b.inFlight && !b.endFetched }, false) := by
  have goesOn : ¬ (rest.isEmpty && b.endFetched) = true := by simpa using more
  have used : ({ v with position := nextPosition z v.position } : Voice).state ≠ .free := Voice.givesOutput_used gives
  simp only [frameVoice, gives, holds, if_true, if_neg goesOn, refillNeeded_inUse _ used]

/-- What a frame can do to a voice: it gives nothing, or finds its buffer empty with more to come or at the zone's end, or takes
its last sample, or takes one of more. -/
theorem frameVoice_cases (z : ZoneEntry) (v : Voice) (b : Buffer) :
    (v.givesOutput = false ∧ frameVoice z v b = (0, v, b, false))
    ∨ (v.givesOutput = true ∧ b.samples = [] ∧ b.endFetched = false ∧ frameVoice z v b = (0, v, b, true))
    ∨ (v.givesOutput = true ∧ b.samples = [] ∧ b.endFetched = true
      ∧ frameVoice z v b = (0, v.freed, Buffer.reset, false))
    ∨ (∃ w, v.givesOutput = true ∧ b.samples = [w] ∧ b.endFetched = true ∧ frameVoice z v b
      = (voiceOutput w v.gain v.e, { v.freed with position := nextPosition z v.position }, Buffer.reset, false))
    ∨ ∃ w rest, v.givesOutput = true ∧ b.samples = w :: rest ∧ ¬ (rest = [] ∧ b.endFetched = true) ∧ frameVoice z v b
      = (voiceOutput w v.gain v.e, { v with position := nextPosition z v.position }, { b with
          samples := rest
          requesting := decide (rest.length ≤ 64) && !b.inFlight && !b.endFetched }, false) := by
  cases gives : v.givesOutput with
  | false => exact .inl ⟨rfl, frameVoice_mute z gives⟩
  | true =>
    refine .inr ?_
    cases holds : b.samples with
    | nil =>
      cases ended : b.endFetched with
      | false => exact .inl ⟨rfl, rfl, rfl, frameVoice_starved z gives holds ended⟩
      | true => exact .inr (.inl ⟨rfl, rfl, rfl, frameVoice_ended z gives holds ended⟩)
    | cons w rest =>
      refine .inr (.inr ?_)
      by_cases last : rest = [] ∧ b.endFetched = true
      · obtain ⟨rfl, ended⟩ := last
        exact .inl ⟨w, rfl, rfl, ended, frameVoice_last z gives holds ended⟩
      · exact .inr ⟨w, rest, rfl, rfl, last, frameVoice_takes z gives holds last⟩

/-- A voice is starved when it gives output, holds no sample and its end is not fetched (R121). -/
theorem frameVoice_starves (z : ZoneEntry) (v : Voice) (b : Buffer) : (frameVoice z v b).2.2.2
    = (v.givesOutput && b.samples.isEmpty && !b.endFetched) := by
  obtain ⟨g, eq⟩ | ⟨g, h, e, eq⟩ | ⟨g, h, e, eq⟩ | ⟨w, g, h, -, eq⟩ | ⟨w, rest, g, h, -, eq⟩ := frameVoice_cases z v b
  case inl => simp only [eq, g, Bool.false_and]
  case inr.inl => simp [eq, g, h, e]
  case inr.inr.inl => simp [eq, g, h, e]
  all_goals simp [eq, g, h]

theorem nextPosition_eq (z : ZoneEntry) (position : Nat) : nextPosition z position
    = if z.loop = true ∧ z.length ≤ position + 1 then z.loopStart else position + 1 := by
  simp [nextPosition]

end

/-! ### Buses (R127, R128) -/

theorem busSum_eq (source : Source) (share : Int → Key → Int) (voices : Vector Voice 96) (outputs : Vector Int 96) :
    busSum source share voices outputs
      = ∑ i : VoiceIx, if voices[i].source = source then share outputs[i] voices[i].key else 0 := by
  rw [Fin.sum_univ_def, List.sum_eq_foldl, List.foldl_map]
  refine List.foldl_ext _ _ _ fun sum i _ => ?_
  split
  · rfl
  · exact (add_zero sum).symm

/-! ### What the frame leaves (R118, R121, R126) -/

/-- What the frame does to a voice: its output, its record, its buffer, and whether it counts an underrun. -/
def State.frameOf (s : State) (i : VoiceIx) : Int × Voice × Buffer × Bool :=
  frameVoice (s.zoneOf s.voice.voices[i]) s.voice.voices[i] s.wave.buffers[i]

theorem State.frameResults_eq (s : State) : s.frameResults = Vector.ofFn s.frameOf := rfl

theorem mapTable_ofFn {α β : Type} {n : Nat} (f : α → β) (g : Fin n → α) :
    mapTable f (Vector.ofFn g) = Vector.ofFn fun i => f (g i) := by
  simp [mapTable]

theorem toList_ofFn_filter {α : Type} (f : VoiceIx → α) (p : α → Bool) :
    ((Vector.ofFn f).toList.filter p).length = (allVoices.filter fun i => p (f i)).length := by
  rw [Vector.toList_ofFn, List.ofFn_eq_map, List.filter_map, List.length_map]
  rfl

/-- The state that an audio frame puts to the arbiter (R126). -/
def State.framed (s : State) : State := { s with
  audio := s.audio.mix s.voice.voices (Vector.ofFn fun i => (s.frameOf i).1)
  voice := { s.voice with
    voices := Vector.ofFn fun i => (s.frameOf i).2.1
    underrun := min 65535 (s.voice.underrun + (allVoices.filter fun i => (s.frameOf i).2.2.2).length) }
  wave := { s.wave with buffers := Vector.ofFn fun i => (s.frameOf i).2.2.1 } }

theorem State.framed_zones (s : State) : s.framed.wave.zones = s.wave.zones := by simp only [State.framed]

theorem State.framed_sent (s : State) : s.framed.audio.sent = s.audio.slots := by simp only [State.framed, AudioPort.mix]

theorem State.framed_routes (s : State) : s.framed.audio.routes = s.audio.routes := by simp only [State.framed, AudioPort.mix]

theorem State.framed_slots (s : State) (n : Fin 8) :
    s.framed.audio.slots[n] = s.audio.routed s.framed.audio.buses s.audio.routes[n] := by
  simp [State.framed, AudioPort.mix]

theorem State.framed_voice (s : State) (i : VoiceIx) : s.framed.voice.voices[i] = (s.frameOf i).2.1 := by
  simp [State.framed]

theorem State.framed_buffer (s : State) (i : VoiceIx) : s.framed.wave.buffers[i] = (s.frameOf i).2.2.1 := by
  simp [State.framed]

/-- A buffer that the frame empties asks for nothing, and so stays empty (R113). -/
theorem State.framed_emptied (s : State) (i : VoiceIx) (emptied : (s.frameOf i).2.2.1 = Buffer.reset) :
    s.framed.arbitrate.wave.buffers[i] = Buffer.reset := by
  have buffer : s.framed.wave.buffers[i] = Buffer.reset := (s.framed_buffer i).trans emptied
  rw [s.framed.arbitrate_buffer_quiet i (by rw [buffer]; rfl), buffer]

theorem State.audioFrame_eq (s : State) : s.audioFrame = s.framed.arbitrate := by
  simp only [State.audioFrame, State.storeFrame, State.frameResults_eq, mapTable_ofFn, toList_ofFn_filter, State.onAudio,
    State.onVoice, State.onWave, State.framed, Config.counterMax]

/-- Settles O42: the bits and the silent frames by the port; a frame by what each voice gives, and then the arbiter's choice,
which leaves all but the requests of the buffers. -/
theorem framesMixEveryVoice : Obligations.FramesMixEveryVoice := by
  refine ⟨fun s held => ?_, frameClockBits_getElem, fun s awake => ?_⟩
  · exact ⟨s.silentFrame, congrArg Host.Outcome.next (if_pos held), rfl, AudioPort.frameBits_silent _ rfl⟩
  have runs : exec .audioFrame s = .next s.framed.arbitrate :=
    congrArg Host.Outcome.next ((if_neg (Bool.eq_false_iff.1 awake)).trans s.audioFrame_eq)
  refine ⟨s.framed.arbitrate, runs, ?_, s.framed.arbitrate_zones.trans s.framed_zones, ?_, ?_,
    ⟨AudioPort.length_frameBits _, fun n k => ?_⟩, ?_, ?_⟩
  · have wave := s.framed.arbitrate_eq
    rw [State.arbitrate_audio, State.arbitrate_voice]
    generalize s.framed.arbitrate.wave = w at wave ⊢
    rw [wave]
    simp only [State.framed]
  · rw [State.arbitrate_audio, s.framed_sent]
  · rw [State.arbitrate_audio, s.framed_routes]
  · rw [AudioPort.frameBits_getElem, State.arbitrate_audio, s.framed_sent]
  · rw [State.arbitrate_audio]
    exact ⟨rfl, rfl, rfl⟩
  intro limited side gives output pan sum left right starved
  have givesIs (i : VoiceIx) : gives i = s.voice.voices[i].givesOutput := (Voice.givesOutput_eq _).symm
  have outputIs (i : VoiceIx) : output i = (s.frameOf i).1 := by
    simp only [output, givesIs, State.frameOf]
    generalize s.voice.voices[i] = v
    generalize s.wave.buffers[i] = b
    obtain ⟨g, eq⟩ | ⟨g, h, -, eq⟩ | ⟨g, h, -, eq⟩ | ⟨w, g, h, -, eq⟩ | ⟨w, rest, g, h, -, eq⟩ :=
      frameVoice_cases (s.zoneOf v) v b
    case inl => simp only [eq, g]
    all_goals simp only [eq, g, h, voiceOutput]
  have starvedIs (i : VoiceIx) : starved i = (s.frameOf i).2.2.2 := by
    simp only [starved, givesIs, State.frameOf, frameVoice_starves]
  have sumIs (source : Source) (share : Int → Key → Int) :
      saturate (busSum source share s.voice.voices (Vector.ofFn fun i => (s.frameOf i).1))
        = sum source fun i => share (output i) s.voice.voices[i].key := by
    rw [busSum_eq]
    refine congrArg limited (Finset.sum_congr rfl fun i _ => ?_)
    simp only [outputIs, Fin.getElem_fin, Vector.getElem_ofFn]
  rw [State.arbitrate_audio, State.arbitrate_voice]
  refine ⟨?_, fun n => ?_, ?_, ?_, fun i => ?_⟩
  · simp only [State.framed, AudioPort.mix, busesOf, sumIs]
    rfl
  · have sideIs (c : Channel) (live playback : Int) : side c live playback = channelSide (s.audio.gains c) live playback := by
      cases c <;> rfl
    rw [s.framed_slots]
    generalize s.audio.routes[n] = route
    cases route with
    | off => rfl
    | out c at_side => cases at_side <;> exact (sideIs c _ _).symm
  · simp only [State.framed, funext starvedIs]
  · intro kept
    have keptIs (i : VoiceIx) : kept i = (s.frameOf i).2.2.1 := by
      simp only [kept, givesIs, State.frameOf]
      generalize s.voice.voices[i] = v
      generalize s.wave.buffers[i] = b
      obtain ⟨g, eq⟩ | ⟨g, h, e, eq⟩ | ⟨g, h, e, eq⟩ | ⟨w, g, h, e, eq⟩ | ⟨w, rest, g, h, e, eq⟩ :=
        frameVoice_cases (s.zoneOf v) v b
      case inl => simp only [eq, g]
      all_goals simp [eq, g, h, e]
    refine congrArg State.arbitrate ?_
    rw [funext keptIs]
    simp only [State.framed]
  · intro v b freed
    refine ⟨fun g => ?_, fun g empty more => ?_, fun g empty ended => ?_, fun w rest g holds => ?_⟩
    all_goals rw [givesIs] at g
    · rw [s.framed_voice, State.frameOf, frameVoice_mute _ g]
    · rw [s.framed_voice, State.frameOf, frameVoice_starved _ g empty more]
    · have eq : s.frameOf i = _ := frameVoice_ended (s.zoneOf v) g empty ended
      exact ⟨by rw [s.framed_voice, eq]; rfl, s.framed_emptied i (by rw [eq])⟩
    · intro z next
      have nextIs : next = nextPosition z v.position := (nextPosition_eq z v.position).symm
      rw [nextIs]
      by_cases last : rest = [] ∧ b.endFetched = true
      · have eq : s.frameOf i = _ := frameVoice_last z g (last.1 ▸ holds) last.2
        rw [if_pos last]
        exact ⟨by rw [s.framed_voice, eq]; rfl, s.framed_emptied i (by rw [eq])⟩
      · have eq : s.frameOf i = _ := frameVoice_takes z g holds last
        rw [if_neg last]
        exact ⟨by rw [s.framed_voice, eq], by rw [State.arbitrate_samples, s.framed_buffer, eq]⟩

end Sys2Proof.Machine
end

section
/-! PROOFS. The reads of a zone load (R108, R110, R111): the entries that sixteen bytes each spell, the load's next read, and
the load's end. -/

namespace Sys2Proof.Machine

/-! ### The entries of a read (R107, R108) -/

/-- The byte at a place of a read, as a number; 0 past the read's end. -/
def byteAt (data : List Byte) (n : Nat) : Nat := (data.getD n 0).toNat

/-- The four bytes from a place of a read, least significant first. -/
def wordAt (data : List Byte) (n : Nat) : Nat :=
  byteAt data n + 256 * byteAt data (n + 1) + 65536 * byteAt data (n + 2) + 16777216 * byteAt data (n + 3)

/-- The zone entry that the sixteen bytes from a place of a read spell, when it is valid (R108). -/
def zoneEntryAt (data : List Byte) (start : Nat) : Option ZoneEntry :=
  let byte := fun n => byteAt data (start + n)
  let word := fun n => wordAt data (start + n)
  if byte 0 ≤ 87 ∧ 1 ≤ byte 1 ∧ byte 1 ≤ byte 2 ∧ byte 2 ≤ 127 ∧ byte 3 ≤ 1 ∧ word 4 + 2 * word 8 ≤ 67108864
      ∧ (byte 3 = 1 → word 12 < word 8)
  then some (ZoneEntry.mk (byte 0) (byte 1) (byte 2) (decide (byte 3 = 1)) (word 4) (word 8) (word 12)) else none

theorem leNat_take_succ (data : List Byte) (k : Nat) :
    leNat (data.take (k + 1)) = byteAt data 0 + 256 * leNat ((data.drop 1).take k) := by
  cases data with
  | nil => simp [leNat, byteAt]
  | cons b rest => rfl

theorem byteAt_drop (data : List Byte) (start n : Nat) : byteAt (data.drop start) n = byteAt data (start + n) := by
  simp only [byteAt, List.getD_eq_getElem?_getD, List.getElem?_drop]

theorem byteAt_take {k n : Nat} (data : List Byte) (inside : n < k) : byteAt (data.take k) n = byteAt data n := by
  simp only [byteAt, List.getD_eq_getElem?_getD, List.getElem?_take_of_lt inside]

theorem leNat_eq_wordAt (data : List Byte) (n : Nat) : leNat ((data.drop n).take 4) = wordAt data n := by
  simp only [leNat_take_succ, List.take_zero, leNat, List.drop_drop, byteAt_drop, wordAt, Nat.add_zero]
  omega

theorem byteAt_drop_take {k n : Nat} (data : List Byte) (start : Nat) (inside : n < k) :
    byteAt ((data.drop start).take k) n = byteAt data (start + n) :=
  (byteAt_take _ inside).trans (byteAt_drop data start n)

theorem wordAt_drop_take {k n : Nat} (data : List Byte) (start : Nat) (inside : n + 3 < k) :
    wordAt ((data.drop start).take k) n = wordAt data (start + n) := by
  simp (disch := omega) only [wordAt, byteAt_drop_take, Nat.add_assoc]

/-- The loop flag of an entry: 0 and 1 are its only codes (R108). -/
theorem onOffOf_byteAt (data : List Byte) (n : Nat) :
    onOffOf (data.getD n 0) = if byteAt data n ≤ 1 then some (decide (byteAt data n = 1)) else none := by
  simp only [onOffOf_eq, byteAt, BitVec.toNat_eq]
  rfl

theorem zoneEntryOf_eq_zoneEntryAt (data : List Byte) (start : Nat) :
    zoneEntryOf ((data.drop start).take 16) = zoneEntryAt data start := by
  have byte (bytes : List Byte) (n : Nat) : (bytes.getD n 0).toNat = byteAt bytes n := rfl
  simp (disch := omega) only [zoneEntryOf, zoneEntryAt, onOffOf_byteAt, byte, leNat_eq_wordAt, byteAt_drop_take,
    wordAt_drop_take, Config.storeBytes]
  by_cases flag : byteAt data (start + 3) ≤ 1
  · simp only [flag, if_true, true_and, decide_eq_true_eq]
  · simp only [flag, if_false, false_and, and_false]

/-- The entries of a read, each from its own sixteen bytes (R110). -/
theorem zoneRun_drop (n start : Nat) (data : List Byte) :
    zoneRun n (data.drop start) = (List.range n).map fun k => zoneEntryAt data (start + 16 * k) := by
  induction n generalizing start with
  | zero => rfl
  | succ n ih =>
    rw [zoneRun, zoneEntryOf_eq_zoneEntryAt, List.drop_drop, ih, List.range_succ_eq_map, List.map_cons, List.map_map]
    congr 1
    refine List.map_congr_left fun k _ => congrArg (zoneEntryAt data) ?_
    simp only [Nat.succ_eq_add_one]
    omega

theorem zoneRun_eq (n : Nat) (data : List Byte) :
    zoneRun n data = (List.range n).map fun k => zoneEntryAt data (16 * k) := by
  simpa only [List.drop_zero, Nat.zero_add] using zoneRun_drop n 0 data

/-! ### The port after a read (R119) -/

/-- An arbitration never brings back a load that has ended. -/
theorem State.arbitrate_noLoad (s : State) (ended : s.wave.load = none) : s.arbitrate.wave.load = none := by
  have noRead (l : Load) (load : s.wave.load = some l) : l.waiting = false := by
    rw [ended] at load
    cases load
  cases free : s.wave.port with
  | some p => rwa [s.arbitrate_busy p free]
  | none =>
    cases neediest : s.wave.neediest with
    | some i =>
      rw [s.arbitrate_fetch i free noRead neediest]
      exact ended
    | none =>
      cases waits : s.wave.diagnostics with
      | nil => rwa [s.arbitrate_idle noRead neediest (.inr waits)]
      | cons d rest =>
        rw [s.arbitrate_diagnostic d rest free ended neediest waits]
        exact ended

theorem State.arbitrate_summary (s : State) : s.arbitrate.wave.summary = s.wave.summary := by
  obtain ⟨port, load, reads, buffers, eq, -⟩ := s.arbitrate_spec
  rw [eq]

/-- Nothing outside the Wave Fetch Unit changes. -/
theorem State.freePort_eq (s : State) : s.freePort = { s with wave := s.freePort.wave } :=
  State.arbitrate_eq (s.onWave fun w => { w with port := none })

theorem State.freePort_link (s : State) : s.freePort.link = s.link := by
  rw [s.freePort_eq]

theorem State.freePort_scanner (s : State) : s.freePort.scanner = s.scanner := by
  rw [s.freePort_eq]

/-- A load whose next read waits has the port as soon as it is free (R110, R119). -/
theorem State.freePort_load (l : Load) (s : State) (load : s.wave.load = some l) (waits : l.waiting = true) :
    s.freePort = s.onWave fun w => { w with
      port := some (.loadRead l.nextRead.1 l.nextRead.2 false), load := some { l with waiting := false } } :=
  State.arbitrate_load l _ rfl load waits

/-! ### The end of a load (R111, R187, R188) -/

/-- The notice that a load's end raises: WAVE_FAULT after BAD_STORE, and none otherwise (R110). -/
def LoadSummary.notices (m : LoadSummary) : BitVec 11 := if m.outcome = .badStore then Notice.waveFault.bit else 0

/-- What a load's end leaves: the settled table and the summary, and the end of LOAD ZONES or the learning step of STARTUP. -/
def LoadEnded (s : State) (zones : List ZoneEntry) (m : LoadSummary) (notices : BitVec 11) (t : State) : Prop :=
  t = { s with wave := t.wave, scanner := t.scanner, link := t.link }
  ∧ t.wave.load = none ∧ t.wave.zones = zones ∧ t.wave.summary = m
  ∧ (s.link.slot = .running .loadZones → t.scanner = s.scanner ∧ t.link = { s.link with
      slot := .finished .loadZones m.outcome (.load m)
      pendingSet := s.link.pendingSet ||| notices ||| Notice.opDone.bit })
  ∧ (s.link.slot = .running .startup →
    t.scanner = { s.scanner with learning := some ⟨0, Vector.replicate 90 ⟨0, 1023, 0⟩⟩ }
    ∧ t.link = { s.link with pendingSet := s.link.pendingSet ||| notices })

/-- The port's next choice takes nothing of a load's end back. -/
theorem LoadEnded.freePort {s t : State} {zones : List ZoneEntry} {m : LoadSummary} {notices : BitVec 11}
    (ended : LoadEnded s zones m notices t) : LoadEnded s zones m notices t.freePort := by
  obtain ⟨frame, load, table, summary, alone, startup⟩ := ended
  let freed := t.onWave fun w => { w with port := none }
  refine ⟨?_, freed.arbitrate_noLoad load, freed.arbitrate_zones.trans table, freed.arbitrate_summary.trans summary, ?_, ?_⟩
  all_goals rw [t.freePort_scanner, t.freePort_link]
  · exact t.freePort_eq.trans (congrArg (fun u : State => { u with wave := t.freePort.wave }) frame)
  · exact alone
  · exact startup

theorem State.raiseIf_eq (b : Bool) (n : Notice) (s : State) : s.raiseIf b n
    = { s with link := { s.link with pendingSet := s.link.pendingSet ||| if b then n.bit else 0 } } := by
  cases b with
  | false => simp [State.raiseIf]
  | true => rfl

/-- A load settled, before the operation that ran it goes on (R111). -/
def State.loadSettled (m : LoadSummary) (s : State) : State :=
  { s with
    wave := { s.wave with load := none, summary := m }
    link := { s.link with pendingSet := s.link.pendingSet ||| m.notices } }

theorem State.loadSettled_eq (m : LoadSummary) (s : State) :
    State.raiseIf (m.outcome = .badStore) .waveFault (s.onWave fun w => { w with load := none, summary := m })
      = s.loadSettled m := by
  simp only [State.raiseIf_eq, decide_eq_true_eq]
  rfl

theorem State.endLoad_loadZones (m : LoadSummary) (s : State) (slot : s.link.slot = .running .loadZones) :
    s.endLoad m = (s.loadSettled m).endOperation m.outcome (.load m) := by
  have settled : (s.loadSettled m).link.slot = .running .loadZones := slot
  simp only [State.endLoad, State.loadSettled_eq, settled]

theorem State.endLoad_startup (m : LoadSummary) (s : State) (slot : s.link.slot = .running .startup) :
    s.endLoad m = (s.loadSettled m).beginLearning := by
  have settled : (s.loadSettled m).link.slot = .running .startup := slot
  simp only [State.endLoad, State.loadSettled_eq, settled]

theorem State.endLoad_other (m : LoadSummary) (s : State) (notAlone : s.link.slot ≠ .running .loadZones)
    (notStartup : s.link.slot ≠ .running .startup) : s.endLoad m = s.loadSettled m := by
  simp only [State.endLoad, State.loadSettled_eq]
  split
  · next slot => exact absurd slot notAlone
  · next slot => exact absurd slot notStartup
  · rfl

/-- The operation in the slot says what a load's end leaves (R111, R188). -/
theorem State.endLoad_ended (m : LoadSummary) (s : State) : LoadEnded s s.wave.zones m m.notices (s.endLoad m) := by
  by_cases alone : s.link.slot = .running .loadZones
  · rw [s.endLoad_loadZones m alone, State.endOperation_running .loadZones _ _ (s.loadSettled m) alone]
    exact ⟨rfl, rfl, rfl, rfl, fun _ => ⟨rfl, rfl⟩, fun startup => absurd (alone.symm.trans startup) nofun⟩
  · by_cases startup : s.link.slot = .running .startup
    · rw [s.endLoad_startup m startup]
      exact ⟨rfl, rfl, rfl, rfl, fun slot => absurd slot alone, fun _ => ⟨rfl, rfl⟩⟩
    · rw [s.endLoad_other m alone startup]
      exact ⟨rfl, rfl, rfl, rfl, fun slot => absurd slot alone, fun slot => absurd slot startup⟩

/-! ### The arrivals (R110 to R112) -/

/-- A load read with as many bytes as it asked for reaches its load, unless that was aborted (R110, R112). -/
theorem loadReadArrival_arrives {address count : Nat} {discarded : Bool} {data : List Byte} {s : State}
    (awake : s.inReset = false) (whole : data.length = count)
    (carries : s.wave.port = some (.loadRead address count discarded)) :
    exec (.loadReadArrival data) s = .next (if discarded then s else s.loadTakes data).freePort := by
  refine (unlessReset_on (State.loadReadArrives data) s awake).trans (congrArg _ ?_)
  simp only [State.loadReadArrives, carries, if_pos whole]

theorem State.loadTakes_header (data : List Byte) (s : State) {l : Load} (load : s.wave.load = some l)
    (header : l.zoneCount = none) : s.loadTakes data = s.headerArrives data := by
  simp only [State.loadTakes, load, header]

theorem State.loadTakes_entries (data : List Byte) (s : State) {l : Load} {zones : Nat} (load : s.wave.load = some l)
    (header : l.zoneCount = some zones) : s.loadTakes data = s.entriesArrive l zones data := by
  simp only [State.loadTakes, load, header]

theorem signatureOk_iff (data : List Byte) : signatureOk data = true ↔ data.take 4 = [0x50#8, 0x56#8, 0x57#8, 0x53#8] :=
  decide_eq_true_iff

theorem State.headerArrives_bad (data : List Byte) (s : State) (bad : data.take 4 ≠ [0x50#8, 0x56#8, 0x57#8, 0x53#8]) :
    s.headerArrives data = s.endLoad ⟨.badStore, none, 0, 0⟩ :=
  if_neg (mt (signatureOk_iff data).1 bad)

theorem State.headerArrives_empty (data : List Byte) (s : State) (good : data.take 4 = [0x50#8, 0x56#8, 0x57#8, 0x53#8])
    (empty : leNat ((data.drop 4).take 4) = 0) : s.headerArrives data = s.endLoad ⟨.complete, some 0, 0, 0⟩ := by
  refine (if_pos ((signatureOk_iff data).2 good)).trans ?_
  rw [empty]
  rfl

theorem State.headerArrives_filled (data : List Byte) (s : State) (good : data.take 4 = [0x50#8, 0x56#8, 0x57#8, 0x53#8])
    (filled : leNat ((data.drop 4).take 4) ≠ 0) : s.headerArrives data = s.onWave fun w => { w with
      load := some ⟨some (leNat ((data.drop 4).take 4)), min (leNat ((data.drop 4).take 4)) 512, 0, 0, true⟩ } :=
  (if_pos ((signatureOk_iff data).2 good)).trans (if_neg (show ¬ min _ 512 = 0 by omega))

/-- Settles O45: each read by what its load waits for, and its end by the slot's operation. -/
theorem loadReadsBuildTheTable : Obligations.LoadReadsBuildTheTable := by
  intro s address count data awake whole freed ended entryAt
  refine ⟨loadReadArrival_arrives awake whole, fun carries l load => ?_⟩
  have taken : exec (.loadReadArrival data) s = .next (s.loadTakes data).freePort :=
    loadReadArrival_arrives awake whole carries
  rw [taken]
  refine ⟨fun header => ?_, fun zones header => ?_⟩
  · rw [s.loadTakes_header data load header]
    refine ⟨fun bad => ?_, fun good => ?_⟩
    · rw [s.headerArrives_bad data bad]
      exact ⟨_, rfl, (s.endLoad_ended _).freePort⟩
    · intro zones
      refine ⟨fun empty => ?_, fun filled => ?_⟩
      · rw [s.headerArrives_empty data good empty]
        exact ⟨_, rfl, (s.endLoad_ended _).freePort⟩
      · rw [s.headerArrives_filled data good filled, State.freePort_load _ _ rfl rfl]
        rfl
  · rw [s.loadTakes_entries data load header]
    intro entries valid skipped done
    have run : zoneRun (data.length / 16) data = entries := zoneRun_eq _ data
    simp only [State.entriesArrive, run]
    refine ⟨fun last => ?_, fun more => ?_⟩
    · rw [if_pos (show l.total ≤ l.done + entries.length from last)]
      have raised : LoadSummary.notices
          ⟨loadOutcome zones, some zones, (s.wave.zones ++ valid).length, skipped⟩ = 0 :=
        if_neg (by unfold loadOutcome; split <;> nofun)
      exact ⟨_, rfl, raised ▸ (State.endLoad_ended _ _).freePort⟩
    · rw [if_neg (show ¬ l.total ≤ l.done + entries.length from Nat.not_le.2 more), State.freePort_load _ _ rfl rfl]
      simp only [Load.nextRead, header]
      rfl

end Sys2Proof.Machine
end

section
/-! PROOFS. READ WAVE STORE (R119, R122, R180): its check, its wait at the arbiter, and the reply of its arrival. -/

namespace Sys2Proof.Machine

theorem serveReadWaveStore_eq (address : Long) (count : Byte) (s : State) : serveReadWaveStore address count s
    = if 1 ≤ count.toNat ∧ count.toNat ≤ 128 ∧ address.toNat + count.toNat ≤ 67108864 then
        .waiting (s.onWave fun w => { w with diagnostics := w.diagnostics ++ [⟨address.toNat, count.toNat⟩] }).arbitrate
      else .refuse .badValue s := rfl

theorem readWaveStore_served (address : Long) (count : Byte) (s : State) (taking : s.taking) :
    exec (.readWaveStore address count) s = .next (State.conclude 0x32#8 false (serveReadWaveStore address count s)) :=
  unlessReset_arrive_taking (.readWaveStore address count) s taking rfl

section
variable {address count : Nat} {s : State} (awake : s.inReset = false)
  (carries : s.wave.port = some (.diagnostic address count))
include awake carries

theorem diagnosticReadArrival_whole {data : List Byte} (serving : s.link.dispatcher = .serving)
    (whole : data.length = count) : exec (.diagnosticReadArrival data) s = .next (s.freePort.replying 0x32#8 .ok data) := by
  refine (unlessReset_on (State.diagnosticArrives data) s awake).trans (congrArg _ ?_)
  simp only [State.diagnosticArrives, carries, if_pos whole, s.freePort_link, serving, if_true]
  rfl

theorem diagnosticReadArrival_other {data : List Byte} (other : data.length ≠ count) :
    exec (.diagnosticReadArrival data) s = .next s := by
  refine (unlessReset_on (State.diagnosticArrives data) s awake).trans (congrArg _ ?_)
  simp only [State.diagnosticArrives, carries, if_neg other]

end

/-- Settles O46: an accepted read waits behind the port's transfer, or is started on the free port. -/
theorem diagnosticReadsReturnTheirBytes : Obligations.DiagnosticReadsReturnTheirBytes := by
  refine ⟨fun s address count taking => ?_, fun s address count data awake serving carries =>
    ⟨diagnosticReadArrival_whole awake carries serving, diagnosticReadArrival_other awake carries⟩⟩
  rw [readWaveStore_served address count s taking, serveReadWaveStore_eq]
  split
  · let queued := s.onWave fun w => { w with diagnostics := w.diagnostics ++ [⟨address.toNat, count.toNat⟩] }
    refine ⟨fun p busy => ?_, fun free noLoad noOther quiet => ?_⟩
    · rw [State.arbitrate_busy p queued busy]
      rfl
    · have waits : queued.wave.diagnostics = ⟨address.toNat, count.toNat⟩ :: s.wave.diagnostics := by
        simp only [queued, State.onWave_wave, noOther, List.nil_append]
      rw [State.arbitrate_diagnostic _ _ queued free noLoad (queued.wave.neediest_eq_none quiet) waits]
      rfl
  · rfl

end Sys2Proof.Machine
end

section
/-! PROOFS. The gain ramps (R130): a step and a run of steps toward the target, from below and from above. -/

namespace Sys2Proof.Machine

section
variable {g : Gain}

theorem Gain.ramp_of_le (below : g.current ≤ g.target) :
    g.ramp = { g with current := min g.target (g.current + 1) } := by
  rcases below.lt_or_eq with lower | reached
  · rw [Gain.ramp, if_pos lower, Nat.min_eq_right lower]
  · rw [Gain.ramp, if_neg reached.not_lt, if_neg reached.not_gt, Nat.min_eq_left (by omega)]
    exact congrArg (Gain.mk g.target) reached

theorem Gain.ramp_of_ge (above : g.target ≤ g.current) :
    g.ramp = { g with current := max g.target (g.current - 1) } := by
  rcases above.lt_or_eq with higher | reached
  · rw [Gain.ramp, if_neg above.not_gt, if_pos higher, Nat.max_eq_right (Nat.le_sub_one_of_lt higher)]
  · rw [Gain.ramp, if_neg reached.not_gt, if_neg reached.not_lt, Nat.max_eq_left (by omega)]
    exact congrArg (Gain.mk g.target) reached.symm

theorem Gain.iterate_ramp_of_le (below : g.current ≤ g.target) (n : Nat) :
    Gain.ramp^[n] g = { g with current := min g.target (g.current + n) } := by
  induction n with
  | zero => simp [below]
  | succ n ih =>
    rw [Function.iterate_succ_apply', ih, Gain.ramp_of_le (Nat.min_le_left ..)]
    dsimp only
    congr 1
    omega

theorem Gain.iterate_ramp_of_ge (above : g.target ≤ g.current) (n : Nat) :
    Gain.ramp^[n] g = { g with current := max g.target (g.current - n) } := by
  induction n with
  | zero => simp [above]
  | succ n ih =>
    rw [Function.iterate_succ_apply', ih, Gain.ramp_of_ge (Nat.le_max_left ..)]
    dsimp only
    congr 1
    omega

end

/-- Settles O43: n frames move the current value by n, stopped at the target, on the side of it where the gain starts. -/
theorem rampsEndAtTheirTarget : Obligations.RampsEndAtTheirTarget := by
  intro g distance
  rcases Nat.lt_or_ge g.current g.target with below | above
  · have course := Gain.iterate_ramp_of_le below.le
    refine ⟨fun n past => ?_, fun n short => ?_⟩
    · rw [course n, Nat.min_eq_left (by omega)]
    · rw [course n, if_pos below]
      exact Nat.min_eq_right (by omega)
  · have course := Gain.iterate_ramp_of_ge above
    refine ⟨fun n past => ?_, fun n short => ?_⟩
    · rw [course n, Nat.max_eq_left (by omega)]
    · rw [course n, if_neg above.not_gt]
      exact Nat.max_eq_right (by omega)

end Sys2Proof.Machine
end

section
/-! PROOFS. The Performance Recorder's invariant (R136, R141 to R143): its parts, and what writing, losing, recovering and each
request leave of it. -/

namespace Sys2Proof.Machine

/-! ### The parts of the invariant -/

theorem BlockName.eq_or_other (n m : BlockName) : m = n ∨ m = n.other := by cases n <;> cases m <;> decide

/-- The blocks' part of the invariant, which holds amid a recovery too (R136): each block is in order, and an ACTIVE one is the
only one, while RECORDING. -/
structure Recorder.BlocksOk (r : Recorder) : Prop where
  block (n : BlockName) : (r.block n).ok
  alone (n : BlockName) : (r.block n).state = .active → r.recording = true ∧ (r.block n.other).state ≠ .active

/-- The losses' part of the invariant (R142). -/
def Recorder.LossesOk (r : Recorder) : Prop := (r.firstLost = none ↔ r.lostCount = 0) ∧ r.lostCount ≤ 65535

theorem Recorder.activeBlock_eq_none {r : Recorder} : r.activeBlock = none ↔ ∀ n, (r.block n).state ≠ .active := by
  refine ⟨fun h n active => ?_, fun h => Recorder.activeBlock_of_neither .a r (h .a) (h .b)⟩
  unfold Recorder.activeBlock at h
  split at h
  · cases h
  · split at h
    · cases h
    · cases n <;> contradiction

theorem Recorder.state_of_activeBlock {n : BlockName} {r : Recorder} (active : r.activeBlock = some n) :
    (r.block n).state = .active := by
  unfold Recorder.activeBlock at active
  split at active
  · cases active
    assumption
  · split at active <;> cases active
    assumption

theorem Recorder.ok_iff (r : Recorder) :
    r.ok ↔ r.BlocksOk ∧ r.LossesOk ∧ (r.activeBlock = none ∨ r.lostCount = 0) := by
  have inactive : r.activeBlock = none ↔ ¬ (r.blockA.state = .active ∨ r.blockB.state = .active) := by
    rw [Recorder.activeBlock_eq_none, not_or]
    exact ⟨fun h => ⟨h .a, h .b⟩, fun h n => by cases n; exacts [h.1, h.2]⟩
  rw [inactive, ← imp_iff_not_or]
  constructor
  · rintro ⟨okA, okB, one, off, lost, most, none'⟩
    refine ⟨⟨fun n => by cases n; exacts [okA, okB], fun n active => ?_⟩, ⟨lost, most⟩, none'⟩
    cases n with
    | a => exact ⟨Bool.not_eq_false _ ▸ fun h => (off h).1 active, fun other => one ⟨active, other⟩⟩
    | b => exact ⟨Bool.not_eq_false _ ▸ fun h => (off h).2 active, fun other => one ⟨other, active⟩⟩
  · rintro ⟨blocks, ⟨lost, most⟩, none'⟩
    refine ⟨blocks.block .a, blocks.block .b, fun both => (blocks.alone .a both.1).2 both.2, fun off => ?_, lost, most, none'⟩
    exact ⟨fun active => Bool.eq_false_iff.1 off (blocks.alone .a active).1,
      fun active => Bool.eq_false_iff.1 off (blocks.alone .b active).1⟩

section
variable {r : Recorder}

/-- Only the blocks and the recording stand in the blocks' part. -/
theorem Recorder.BlocksOk.of_eq {q : Recorder} (ok : r.BlocksOk) (a : q.blockA = r.blockA) (b : q.blockB = r.blockB)
    (recording : q.recording = r.recording) : q.BlocksOk := by
  have block (n : BlockName) : q.block n = r.block n := by cases n; exacts [a, b]
  exact ⟨fun n => by rw [block]; exact ok.block n, fun n => by rw [block, block, recording]; exact ok.alone n⟩

/-- With no block ACTIVE the recording may end. -/
theorem Recorder.BlocksOk.of_inactive {q : Recorder} (ok : r.BlocksOk) (a : q.blockA = r.blockA) (b : q.blockB = r.blockB)
    (none' : r.activeBlock = none) : q.BlocksOk := by
  have block (n : BlockName) : q.block n = r.block n := by cases n; exacts [a, b]
  refine ⟨fun n => by rw [block]; exact ok.block n, fun n active => ?_⟩
  exact absurd (block n ▸ active) (Recorder.activeBlock_eq_none.1 none' n)

/-- One block replaced by a block in order, which is ACTIVE only where it may be. -/
theorem Recorder.BlocksOk.withBlock (ok : r.BlocksOk) (n : BlockName) {b : RecordBlock} (inOrder : b.ok)
    (may : b.state = .active → r.recording = true ∧ (r.block n.other).state ≠ .active) : (r.withBlock n b).BlocksOk := by
  have recording : (r.withBlock n b).recording = r.recording := by cases n <;> rfl
  refine ⟨fun m => ?_, fun m active => ?_⟩
  · obtain rfl | rfl := n.eq_or_other m
    · rwa [block_withBlock]
    · rw [other_withBlock]
      exact ok.block _
  · rw [recording]
    obtain rfl | rfl := n.eq_or_other m
    · rw [block_withBlock] at active
      rw [other_withBlock]
      exact may active
    · rw [other_withBlock] at active
      rw [BlockName.other_other, block_withBlock]
      exact ⟨(ok.alone _ active).1, fun both => (may both).2 active⟩

theorem Recorder.BlocksOk.holding (ok : r.BlocksOk) {n : BlockName} {l : List Record} (recording : r.recording = true)
    (other : (r.block n.other).state ≠ .active) (few : l.length < 48) : (r.holding n l).BlocksOk :=
  ok.withBlock n (b := ⟨.active, l⟩) few fun _ => ⟨recording, other⟩

theorem Recorder.BlocksOk.filled (ok : r.BlocksOk) {n : BlockName} {l : List Record} (order : Option BlockName)
    (some' : 1 ≤ l.length) (most : l.length ≤ 48) : (r.filled n l order).BlocksOk :=
  (ok.withBlock n (b := ⟨.ready r.sequence, l⟩) ⟨some', most⟩ nofun).of_eq rfl rfl rfl

/-- A block that is not ACTIVE is EMPTY or READY. -/
theorem BlockState.empty_or_ready {b : BlockState} (other : b ≠ .active) : b = .empty ∨ b.isReady = true := by
  cases b with
  | empty => exact .inl rfl
  | active => exact absurd rfl other
  | ready sequence => exact .inr rfl

/-- The ACTIVE block by its records. -/
theorem Recorder.holding_records {n : BlockName} (active : (r.block n).state = .active) :
    r.holding n (r.block n).records = r := by
  obtain ⟨recording, mask, ⟨stateA, recordsA⟩, ⟨stateB, recordsB⟩, _⟩ := r
  cases n <;> cases active <;> rfl

/-- The records that the ACTIVE block and an EMPTY one after it can still take. -/
def Recorder.room (r : Recorder) : Nat :=
  match r.activeBlock with
  | none => 0
  | some n => 48 - (r.block n).records.length + if (r.block n.other).state = .empty then 48 else 0

theorem Recorder.room_le (r : Recorder) : r.room ≤ 96 := by
  unfold Recorder.room
  split
  · exact Nat.zero_le _
  · split <;> omega

theorem Recorder.activeBlock_holding {n : BlockName} (l : List Record) (other : (r.block n.other).state ≠ .active) :
    (r.holding n l).activeBlock = some n :=
  Recorder.activeBlock_of_active n _ (by rw [Recorder.holding, block_withBlock])
    (by rwa [Recorder.holding, other_withBlock])

theorem Recorder.room_holding {n : BlockName} (l : List Record) (other : (r.block n.other).state ≠ .active) :
    (r.holding n l).room = 48 - l.length + if (r.block n.other).state = .empty then 48 else 0 := by
  simp only [Recorder.room, Recorder.activeBlock_holding l other]
  simp only [Recorder.holding, block_withBlock, other_withBlock]

/-- A block filled after a READY one leaves none ACTIVE. -/
theorem Recorder.activeBlock_filled {n : BlockName} (l : List Record) (order : Option BlockName)
    (other : (r.block n.other).state ≠ .active) : (r.filled n l order).activeBlock = none := by
  refine Recorder.activeBlock_of_neither n _ ?_ ?_
  · rw [Recorder.filled_block]
    exact nofun
  · rwa [Recorder.filled_other]

end

/-! ### Writing (R139, R141) -/

/-- The losses, and whether they end the recording, are the same. -/
structure Recorder.SameLosses (r q : Recorder) : Prop where
  recording : q.recording = r.recording
  lostCount : q.lostCount = r.lostCount
  firstLost : q.firstLost = r.firstLost

theorem Recorder.SameLosses.trans {r q p : Recorder} (h : r.SameLosses q) (g : q.SameLosses p) : r.SameLosses p :=
  ⟨g.recording.trans h.recording, g.lostCount.trans h.lostCount, g.firstLost.trans h.firstLost⟩

theorem Recorder.SameLosses.ok {r q : Recorder} (same : r.SameLosses q) (ok : r.LossesOk) : q.LossesOk := by
  rw [Recorder.LossesOk, same.firstLost, same.lostCount]
  exact ok

theorem Recorder.sameLosses_withBlock (n : BlockName) (b : RecordBlock) (r : Recorder) : r.SameLosses (r.withBlock n b) := by
  cases n <;> exact ⟨rfl, rfl, rfl⟩

theorem Recorder.sameLosses_filled (n : BlockName) (l : List Record) (order : Option BlockName) (r : Recorder) :
    r.SameLosses (r.filled n l order) := by cases n <;> exact ⟨rfl, rfl, rfl⟩

theorem Recorder.sameLosses_writtenAt (time : Time) (r : Recorder) : r.SameLosses (r.writtenAt time) := ⟨rfl, rfl, rfl⟩

/-- This record is the last of a block. -/
def Recorder.Ends (rec : Record) (r : Recorder) : Prop := ∃ n, (r.block n).records.getLast? = some rec

/-- A block handed over is READY with its records, and the room left is that of an EMPTY block after it (R141, R145). -/
theorem Recorder.handOver_leaves {n : BlockName} {l : List Record} {r : Recorder} (ok : r.BlocksOk)
    (recording : r.recording = true) (other : (r.block n.other).state ≠ .active) (some' : 1 ≤ l.length)
    (most : l.length ≤ 48) : ((r.holding n l).handOver n).BlocksOk ∧ r.SameLosses ((r.holding n l).handOver n)
      ∧ ((r.holding n l).handOver n).room = (if (r.block n.other).state = .empty then 48 else 0)
      ∧ ((r.holding n l).handOver n).block n = ⟨.ready r.sequence, l⟩ := by
  obtain empty | ready := BlockState.empty_or_ready other
  · have same := Recorder.sameLosses_filled n l none r
    have next : ((r.filled n l none).block n.other.other).state ≠ .active := by
      rw [BlockName.other_other, Recorder.filled_block]
      exact nofun
    have kept (q : Recorder) : (q.holding n.other []).block n = q.block n := by cases n <;> rfl
    rw [Recorder.handOver_empty _ _ _ empty, Recorder.room_holding _ next, kept, BlockName.other_other,
      Recorder.filled_block, if_pos empty, if_neg nofun]
    exact ⟨(ok.filled none some' most).holding (same.recording.trans recording) next (Nat.zero_lt_succ _),
      same.trans (Recorder.sameLosses_withBlock ..), rfl, rfl⟩
  · have notEmpty : (r.block n.other).state ≠ .empty := fun empty => by rw [empty] at ready; cases ready
    rw [Recorder.handOver_ready _ _ _ ready, Recorder.filled_block, Recorder.room, Recorder.activeBlock_filled _ _ other,
      if_neg notEmpty]
    exact ⟨ok.filled _ some' most, Recorder.sameLosses_filled .., rfl, rfl⟩

/-- A record written into the ACTIVE block leaves the blocks in order, less room, and itself at the end of a block. -/
theorem Recorder.append_active {n : BlockName} {r : Recorder} (ok : r.BlocksOk) (active : r.activeBlock = some n)
    (rec : Record) : ∃ q, r.append rec = some q ∧ q.BlocksOk ∧ r.SameLosses q ∧ q.room < r.room ∧ q.Ends rec := by
  have state := Recorder.state_of_activeBlock active
  obtain ⟨recording, other⟩ := ok.alone n state
  have few : (r.block n).records.length < 48 := by
    have inOrder := ok.block n
    rwa [RecordBlock.ok, state] at inOrder
  have written := Recorder.append_holding other (r.block n).records rec
  have room := Recorder.room_holding (r.block n).records other
  rw [Recorder.holding_records state] at written room
  rw [written, room]
  have length : ((r.block n).records ++ [rec]).length = (r.block n).records.length + 1 := by simp
  split
  · refine ⟨_, rfl, ok.holding recording other (by omega), Recorder.sameLosses_withBlock .., ?_, n, ?_⟩
    · rw [Recorder.room_holding _ other]
      omega
    · rw [Recorder.holding, block_withBlock, List.getLast?_concat]
  · obtain ⟨blocks, same, left, filled⟩ :=
      Recorder.handOver_leaves (l := (r.block n).records ++ [rec]) ok recording other (by omega) (by omega)
    exact ⟨_, rfl, blocks, same, by omega, n, by rw [filled, List.getLast?_concat]⟩

/-- What writing a record after its time leaves: blocks in order and the losses, with the record written at its time, or with
no block ACTIVE. -/
structure Recorder.Wrote (time : Time) (rec : Byte → Record) (r : Recorder) (w : Recorder × Bool) : Prop where
  blocks : w.1.BlocksOk
  same : r.SameLosses w.1
  ends : w.2 = true → (∃ delta, w.1.Ends (rec delta)) ∧ w.1.lastWritten = time
  cut : w.2 = false → w.1.activeBlock = none

/-- More fuel than there is room is never used up. -/
theorem Recorder.writeTimed_wrote {time : Time} {rec : Byte → Record} (fuel : Nat) (r : Recorder) (ok : r.BlocksOk)
    (enough : r.room < fuel) : r.Wrote time rec (r.writeTimed time rec fuel) := by
  induction fuel generalizing r with
  | zero => exact absurd enough (Nat.not_lt_zero _)
  | succ fuel ih =>
    cases active : r.activeBlock with
    | none =>
      rw [Recorder.writeTimed_none _ _ active]
      exact ⟨ok, ⟨rfl, rfl, rfl⟩, nofun, fun _ => active⟩
    | some n =>
      obtain short | long := le_or_gt (ageOf time r.lastWritten) 255
      · obtain ⟨q, written, blocks, same, -, ends⟩ :=
          Recorder.append_active ok active (rec (BitVec.ofNat 8 (ageOf time r.lastWritten)))
        rw [Recorder.writeTimed_now _ _ short, written]
        exact ⟨blocks.of_eq rfl rfl rfl, same.trans (q.sameLosses_writtenAt _), fun _ => ⟨⟨_, ends⟩, rfl⟩, nofun⟩
      · obtain ⟨q, written, blocks, same, less, -⟩ :=
          Recorder.append_active ok active (gapRecord (min (ageOf time r.lastWritten) 65535))
        rw [Recorder.writeTimed_gap _ _ _ long written]
        have rest := ih (q.writtenAt (r.lastWritten + BitVec.ofNat 32 (min (ageOf time r.lastWritten) 65535)))
          (blocks.of_eq rfl rfl rfl) (show q.room < fuel by omega)
        exact ⟨rest.blocks, (same.trans (q.sameLosses_writtenAt _)).trans rest.same, rest.ends, rest.cut⟩

theorem Recorder.writeTimed_timedFuel (time : Time) (rec : Byte → Record) {r : Recorder} (ok : r.BlocksOk) :
    r.Wrote time rec (r.writeTimed time rec timedFuel) :=
  Recorder.writeTimed_wrote _ r ok (Nat.lt_succ_of_le r.room_le)

/-! ### An event taken (R138, R142) -/

theorem Recorder.take_of_written {now : Time} {e : RecorderEvent} {r q : Recorder}
    (written : r.writeTimed now e.record timedFuel = (q, true)) : r.take now e = (q, false) := by
  simp only [Recorder.take, written]

theorem Recorder.take_of_cut {now : Time} {e : RecorderEvent} {r q : Recorder}
    (cut : r.writeTimed now e.record timedFuel = (q, false)) : r.take now e = q.lose now := by
  simp only [Recorder.take, cut]

/-- A loss with no block ACTIVE. -/
theorem Recorder.lose_ok (now : Time) {r : Recorder} (blocks : r.BlocksOk) (losses : r.LossesOk)
    (none' : r.activeBlock = none) : (r.lose now).1.ok := by
  obtain ⟨lost, most⟩ := losses
  have counted : bump r.lostCount ≠ 0 := by unfold bump Config.counterMax; split <;> omega
  have stamped : (if r.lostCount = 0 then some now else r.firstLost) ≠ none := by
    split
    · exact nofun
    · rwa [ne_eq, lost]
  exact (Recorder.ok_iff _).2 ⟨blocks.of_inactive rfl rfl none', ⟨iff_of_false stamped counted, bump_le most⟩, .inl none'⟩

/-- An event taken keeps the invariant: with no block ACTIVE it is lost. -/
theorem Recorder.take_ok (now : Time) (e : RecorderEvent) {r : Recorder} (ok : r.ok) : (r.take now e).1.ok := by
  obtain ⟨blocks, losses, idle⟩ := r.ok_iff.1 ok
  have wrote := Recorder.writeTimed_timedFuel now e.record blocks
  obtain none' | some' := idle
  · rw [Recorder.take_of_cut (Recorder.writeTimed_none _ _ none')]
    exact Recorder.lose_ok now blocks losses none'
  · cases h : r.writeTimed now e.record timedFuel with
    | mk q written =>
      rw [h] at wrote
      obtain ⟨blocks, same, -, cut⟩ := wrote
      cases written with
      | true =>
        rw [Recorder.take_of_written h]
        exact q.ok_iff.2 ⟨blocks, same.ok losses, .inr (same.lostCount.trans some')⟩
      | false =>
        rw [Recorder.take_of_cut h]
        exact Recorder.lose_ok now blocks (same.ok losses) (cut rfl)

/-! ### The recovery and the requests (R143 to R147) -/

theorem Recorder.recover_ok {r : Recorder} (blocks : r.BlocksOk) (losses : r.LossesOk) : r.recover.ok := by
  cases lost : r.firstLost with
  | none =>
    have same : r.recover = r := by simp only [Recorder.recover, lost]
    rw [same]
    exact r.ok_iff.2 ⟨blocks, losses, .inr (losses.1.1 lost)⟩
  | some first =>
    have wrote := Recorder.writeTimed_timedFuel first (lostRecord r.lostCount) blocks
    cases h : r.writeTimed first (lostRecord r.lostCount) timedFuel with
    | mk q written =>
      rw [h] at wrote
      obtain ⟨blocks, same, -, cut⟩ := wrote
      cases written with
      | true =>
        rw [Recorder.recover_written first _ _ lost h]
        exact (Recorder.ok_iff _).2 ⟨blocks.of_eq rfl rfl rfl, ⟨iff_of_true rfl rfl, Nat.zero_le _⟩, .inr rfl⟩
      | false =>
        rw [Recorder.recover_cut first _ _ lost h]
        exact (Recorder.ok_iff _).2 ⟨blocks.of_eq rfl rfl rfl, same.ok losses, .inl (cut rfl)⟩

theorem Recorder.start_ok (mask : SourceMask) (now : Time) (r : Recorder) : (r.start mask now).ok :=
  ⟨Nat.zero_lt_succ _, rfl, nofun, nofun, iff_of_true rfl rfl, Nat.zero_le _, fun _ => rfl⟩

theorem Recorder.reset_ok : Recorder.reset.ok :=
  ⟨rfl, rfl, nofun, fun _ => ⟨nofun, nofun⟩, iff_of_true rfl rfl, Nat.zero_le _, fun _ => rfl⟩

/-- The ACTIVE block of a recorder in order: RECORDING, no other one ACTIVE, fewer than 48 records, and nothing lost. -/
theorem Recorder.ok.active {n : BlockName} {r : Recorder} (ok : r.ok) (active : r.activeBlock = some n) :
    r.recording = true ∧ (r.block n.other).state ≠ .active ∧ (r.block n).records.length < 48 ∧ r.lostCount = 0 := by
  obtain ⟨blocks, -, idle⟩ := r.ok_iff.1 ok
  have state := Recorder.state_of_activeBlock active
  have inOrder := blocks.block n
  rw [RecordBlock.ok, state] at inOrder
  obtain ⟨recording, other⟩ := blocks.alone n state
  exact ⟨recording, other, inOrder, idle.resolve_left fun none' => nomatch none'.symm.trans active⟩

/-- What is written is handed over, and an EMPTY block goes on (R145). -/
theorem Recorder.flush_ok {r : Recorder} (ok : r.ok) : r.flush.ok := by
  cases active : r.activeBlock with
  | none => rwa [Recorder.flush_none r active]
  | some n =>
    by_cases blank : (r.block n).records = []
    · rwa [Recorder.flush_blank n r active blank]
    · obtain ⟨blocks, losses, -⟩ := r.ok_iff.1 ok
      obtain ⟨recording, other, few, none'⟩ := ok.active active
      obtain ⟨handed, same, -⟩ :=
        Recorder.handOver_leaves blocks recording other (List.length_pos_iff.2 blank) few.le
      rw [Recorder.holding_records (Recorder.state_of_activeBlock active)] at handed same
      rw [Recorder.flush_records n r active blank]
      exact (Recorder.ok_iff _).2 ⟨handed, same.ok losses, .inr (same.lostCount.trans none')⟩

/-- A block that becomes READY is one filled (R141, R145). -/
theorem Recorder.becomeReady_eq (n : BlockName) (r : Recorder) : r.becomeReady n
    = r.filled n (r.block n).records (if (r.block n.other).state.isReady then some n.other else none) := rfl

/-- A recording that ends leaves no block ACTIVE (R146). -/
theorem Recorder.stop_ok {r : Recorder} (ok : r.ok) : r.stop.ok := by
  obtain ⟨blocks, losses, -⟩ := r.ok_iff.1 ok
  have ends {q : Recorder} (blocks : q.BlocksOk) (same : r.SameLosses q) (none' : q.activeBlock = none) :
      Recorder.ok { q with recording := false } :=
    (Recorder.ok_iff _).2 ⟨blocks.of_inactive rfl rfl none', same.ok losses, .inl none'⟩
  cases active : r.activeBlock with
  | none =>
    rw [Recorder.stop_none r active]
    exact ends blocks ⟨rfl, rfl, rfl⟩ active
  | some n =>
    obtain ⟨-, other, few, -⟩ := ok.active active
    by_cases blank : (r.block n).records = []
    · rw [Recorder.stop_blank n r active blank]
      refine ends (blocks.withBlock n rfl nofun) (Recorder.sameLosses_withBlock ..) ?_
      exact Recorder.activeBlock_of_neither n _ (by rw [block_withBlock]; exact nofun) (by rwa [other_withBlock])
    · rw [Recorder.stop_records n r active blank, Recorder.becomeReady_eq]
      exact ends (blocks.filled _ (List.length_pos_iff.2 blank) few.le) (Recorder.sameLosses_filled ..)
        (Recorder.activeBlock_filled _ _ other)

/-- A READY block that is read is freed, after the recovery of what was lost (R143, R147). -/
theorem Recorder.free_ok {n : BlockName} {r : Recorder} (ok : r.ok) (notActive : (r.block n).state ≠ .active) :
    (r.free n).ok := by
  obtain ⟨blocks, losses, idle⟩ := r.ok_iff.1 ok
  have blocks : r.read.BlocksOk := blocks.of_eq rfl rfl rfl
  by_cases recording : r.recording = true ∧ (r.block n.other).state ≠ .active
  · obtain ⟨on, other⟩ := recording
    rw [Recorder.free_recording n r on notActive other]
    have held : (r.read.holding n []).BlocksOk :=
      blocks.holding on (by rwa [Recorder.read_block]) (Nat.zero_lt_succ _)
    have same := Recorder.sameLosses_withBlock n ⟨.active, []⟩ r.read
    split
    · exact Recorder.recover_ok held (same.ok losses)
    · exact (Recorder.ok_iff _).2 ⟨held, same.ok losses, .inr (same.lostCount.trans (Nat.eq_zero_of_not_pos ‹_›))⟩
  · have idle' : r.recording = false ∨ (r.block n.other).state = .active := by
      rwa [not_and_or, Bool.not_eq_true, not_not] at recording
    rw [Recorder.free_idle n r idle' notActive]
    have same := Recorder.sameLosses_withBlock n ⟨.empty, []⟩ r.read
    refine (Recorder.ok_iff _).2 ⟨blocks.withBlock n rfl nofun, same.ok losses, ?_⟩
    refine idle.imp (fun none' => ?_) same.lostCount.trans
    have neither := Recorder.activeBlock_eq_none.1 none'
    refine Recorder.activeBlock_of_neither n _ (by rw [block_withBlock]; exact nofun) ?_
    rw [other_withBlock, Recorder.read_block]
    exact neither _

theorem Recorder.oldestReady_ready {n : BlockName} {sequence : Byte} {r : Recorder}
    (oldest : r.oldestReady = some (n, sequence)) : (r.block n).state = .ready sequence := by
  unfold Recorder.oldestReady at oldest
  split at oldest
  · split at oldest <;> cases oldest <;> assumption
  all_goals cases oldest
  all_goals assumption

end Sys2Proof.Machine
end

section
/-! PROOFS. Work that offers events to the recorder (R16, R52, R53, R138, R163): that of the pedals, the player and the action
keeps the recorder's invariant. -/

namespace Sys2Proof.Machine

/-! ### One offer (R138) -/

/-- The state in which an event is taken: written or lost, with RECORD_LOST raised at the first loss (R142, R148). -/
def State.recorded (e : RecorderEvent) (s : State) : State :=
  { s with
    recorder := (s.recorder.take s.perfClock e).1
    link := { s.link with pendingSet :=
      if (s.recorder.take s.perfClock e).2 then s.link.pendingSet ||| Notice.recordLost.bit else s.link.pendingSet } }

theorem State.raiseIf_recorded (e : RecorderEvent) (s : State) :
    (s.onRecorder fun _ => (s.recorder.take s.perfClock e).1).raiseIf (s.recorder.take s.perfClock e).2 .recordLost
      = s.recorded e := by
  unfold State.recorded
  cases (s.recorder.take s.perfClock e).2 <;> rfl

/-- An event is taken while RECORDING with its source in the mask (R138). -/
theorem State.offer_eq (source : Source) (e : RecorderEvent) (s : State) : s.offer source e
    = if s.recorder.recording && s.recorder.mask.includes source then s.recorded e else s := by
  rw [← State.raiseIf_recorded]
  rfl

/-- A mark is taken while RECORDING (R138, R162). -/
theorem State.offerMark_eq (segment pass : Byte) (s : State) : s.offerMark segment pass
    = if s.recorder.recording then s.recorded (.mark segment pass) else s := by
  rw [← State.raiseIf_recorded]
  rfl

/-! ### Work that leaves the recorder alone -/

/-- The Performance Recorder's invariant is kept from one state to another. -/
def KeepsRecorder (s t : State) : Prop := s.recorder.ok → t.recorder.ok

theorem KeepsRecorder.trans {s t u : State} (h : KeepsRecorder s t) (g : KeepsRecorder t u) : KeepsRecorder s u := g ∘ h

theorem KeepsRecorder.of_eq {s t : State} (same : t.recorder = s.recorder) : KeepsRecorder s t := fun ok => same ▸ ok

theorem LinkWork.recorder {s t : State} (h : LinkWork s t) : t.recorder = s.recorder := by
  obtain ⟨n, slot, rfl⟩ := h
  rfl

theorem RailWork.recorder {s t : State} (h : RailWork s t) : t.recorder = s.recorder := by
  obtain ⟨r, n, sl, rfl, -⟩ := h
  rfl

theorem WaveWork.recorder {s t : State} (h : WaveWork s t) : t.recorder = s.recorder := by
  obtain ⟨v, w, rfl⟩ := h
  rfl

theorem State.reloadTempo_recorder (s : State) : s.reloadTempo.recorder = s.recorder := by
  unfold State.reloadTempo
  split <;> rfl

theorem State.sostenutoTurns_recorder (s : State) : s.sostenutoTurns.recorder = s.recorder := by
  unfold State.sostenutoTurns
  extract_lets t
  split <;> rfl

/-! ### Offers -/

theorem State.recorded_keepsRecorder (e : RecorderEvent) (s : State) : KeepsRecorder s (s.recorded e) :=
  Recorder.take_ok s.perfClock e

theorem State.offer_keepsRecorder (source : Source) (e : RecorderEvent) (s : State) : KeepsRecorder s (s.offer source e) := by
  rw [State.offer_eq]
  split
  · exact s.recorded_keepsRecorder e
  · exact id

theorem State.offerMark_keepsRecorder (segment pass : Byte) (s : State) : KeepsRecorder s (s.offerMark segment pass) := by
  rw [State.offerMark_eq]
  split
  · exact s.recorded_keepsRecorder _
  · exact id

theorem State.foldl_keepsRecorder {α : Type} (f : State → α → State) (keeps : ∀ s a, KeepsRecorder s (f s a)) (l : List α)
    (s : State) : KeepsRecorder s (l.foldl f s) := by
  induction l generalizing s with
  | nil => exact id
  | cons a l ih => exact (keeps s a).trans (ih (f s a))

theorem State.offers_keepsRecorder (source : Source) (events : List RecorderEvent) (s : State) :
    KeepsRecorder s (events.foldl (fun u e => u.offer source e) s) :=
  State.foldl_keepsRecorder _ (fun t e => t.offer_keepsRecorder source e) events s

/-! ### The pedals (R52, R53) -/

theorem State.offerSostenuto_keepsRecorder (s : State) : KeepsRecorder s s.offerSostenuto := by
  rw [State.offerSostenuto_eq]
  exact State.offers_keepsRecorder .live _ (s.onPedals _)

theorem State.offerUnaCorda_keepsRecorder (s : State) : KeepsRecorder s s.offerUnaCorda := by
  rw [State.offerUnaCorda_eq]
  exact State.offers_keepsRecorder .live _ (s.onPedals _)

theorem State.offerOpening_keepsRecorder (s : State) : KeepsRecorder s s.offerOpening := by
  rw [State.offerOpening_eq]
  exact s.offers_keepsRecorder .live _

theorem State.takeSostenuto_keepsRecorder (s : State) : KeepsRecorder s s.takeSostenuto := by
  have turned : KeepsRecorder s s.sostenutoTurns := .of_eq s.sostenutoTurns_recorder
  unfold State.takeSostenuto
  split
  · extract_lets t
    split
    · exact (turned.trans t.offerSostenuto_keepsRecorder).trans (State.offerUnaCorda_keepsRecorder _)
    · exact turned
  · exact id

theorem State.confirmSostenuto_keepsRecorder (sample : Sample) (s : State) : KeepsRecorder s (s.confirmSostenuto sample) := by
  unfold State.confirmSostenuto
  split
  · exact s.takeSostenuto_keepsRecorder
  · split
    · exact .of_eq s.sostenutoTurns_recorder
    · exact id

theorem State.scanPedals_keepsRecorder (samples : ScanSamples) (s : State) : KeepsRecorder s (s.scanPedals samples) := by
  cases ready : s.scanner.ready with
  | false =>
    rw [s.scanPedals_notReady samples ready]
    exact id
  | true =>
    rw [s.scanPedals_ready samples ready]
    exact State.offers_keepsRecorder .live _ (s.onPedals _)

theorem State.scanKeys_keepsRecorder (samples : ScanSamples) (s : State) : KeepsRecorder s (s.scanKeys samples) := by
  rw [State.scanKeys_eq]
  have worked : (s.keysScanned samples).recorder = s.recorder := by
    rw [State.keysScanned, State.onScanner_recorder, State.onTouch_recorder]
  exact KeepsRecorder.trans (.of_eq (((s.keysScanned samples).onVoice_recorder _).trans worked))
    (State.offers_keepsRecorder .live _ _)

theorem State.scanSensors_keepsRecorder (samples : ScanSamples) (s : State) : KeepsRecorder s (s.scanSensors samples) := by
  unfold State.scanSensors
  split
  · exact (s.scanPedals_keepsRecorder samples).trans (State.scanKeys_keepsRecorder samples _)
  · exact (s.scanKeys_keepsRecorder samples).trans (State.scanPedals_keepsRecorder samples _)

/-! ### The player (R159 to R168) -/

theorem State.handPlayback_keepsRecorder (n : NoteRequest) (s : State) : KeepsRecorder s (s.handPlayback n) :=
  State.offer_keepsRecorder .playback _ (s.onVoice _)

theorem State.playbackClearing_keepsRecorder (s : State) : KeepsRecorder s s.playbackClearing := by
  rw [State.playbackClearing_eq]
  exact State.offers_keepsRecorder .playback _ (((s.onVoice _).onPlayer _).clearPlaybackPedals)

theorem State.playEnds_keepsRecorder (s : State) : KeepsRecorder s s.playEnds := s.playbackClearing_keepsRecorder

theorem State.playerHalts_keepsRecorder (halted : PlayerState) (s : State) : KeepsRecorder s (s.playerHalts halted) :=
  s.playbackClearing_keepsRecorder

theorem State.beginRange_keepsRecorder (zeroBegun : Bool) (s : State) : KeepsRecorder s (s.beginRange zeroBegun).1 :=
  s.offerMark_keepsRecorder _ _

theorem State.loadSegment_keepsRecorder (zeroBegun : Bool) (fuel : Nat) (s : State) :
    KeepsRecorder s (s.loadSegment zeroBegun fuel).1 := by
  induction fuel generalizing s with
  | zero => exact id
  | succ fuel ih =>
    unfold State.loadSegment
    split
    · exact s.playEnds_keepsRecorder
    · extract_lets seg t
      split
      · split
        · exact t.playerHalts_keepsRecorder _
        · exact ih t
      · exact State.beginRange_keepsRecorder zeroBegun (s.onPlayer _)

theorem State.endRange_keepsRecorder (zeroBegun : Bool) (s : State) : KeepsRecorder s (s.endRange zeroBegun).1 := by
  unfold State.endRange
  split
  · exact State.beginRange_keepsRecorder zeroBegun (s.onPlayer _)
  · split
    · exact State.beginRange_keepsRecorder zeroBegun (s.onPlayer _)
    · exact State.loadSegment_keepsRecorder zeroBegun loadFuel (s.onPlayer _)

/-- A fired record offers one event at most (R163). -/
theorem State.fireRecord_keepsRecorder (r : Record) (s t : State) (fires : s.fireRecord r = some t) : KeepsRecorder s t := by
  have pedal (which : Pedal) : KeepsRecorder s
      ((s.writePlayback which r.value.toNat).offer .playback (.pedal which r.value)) :=
    State.offer_keepsRecorder _ _ (s.writePlayback which _)
  unfold State.fireRecord at fires
  split at fires
  case h_2 | h_3 =>
    split at fires
    · cases fires
    · split at fires <;> cases fires
      · exact s.handPlayback_keepsRecorder _
      · exact id
  case h_4 =>
    split at fires <;> cases fires
    all_goals exact pedal _
  all_goals cases fires
  all_goals exact id

theorem State.firingRun_keepsRecorder (fuel : Nat) (zeroBegun : Bool) (s : State) :
    KeepsRecorder s (s.firingRun fuel zeroBegun) := by
  induction fuel generalizing s zeroBegun with
  | zero => exact id
  | succ fuel ih =>
    by_cases due : s.player.state = .running ∧ s.player.countdown = 0
    · rw [State.firingRun_fires _ _ _ due.1 due.2]
      split
      · exact id
      · split
        · exact s.playerHalts_keepsRecorder _
        · rename_i t fires
          have fired := State.fireRecord_keepsRecorder _ _ _ fires
          split
          · exact fired.trans (ih _ (t.onPlayer _))
          · exact (fired.trans (t.endRange_keepsRecorder zeroBegun)).trans (ih _ _)
    · rw [State.firingRun_stops _ _ _ due]
      exact id

theorem State.matchStrike_keepsRecorder (k : Key) (s : State) : KeepsRecorder s (s.matchStrike k) := by
  unfold State.matchStrike
  split
  · split
    · extract_lets t
      split
      · have resumed : KeepsRecorder s (State.reloadTempo (t.onPlayer fun p => { p with state := .running })) :=
          .of_eq (State.reloadTempo_recorder _)
        exact resumed.trans (State.firingRun_keepsRecorder _ _ _)
      · exact id
    · exact id
  · exact id

theorem State.takePlaybackTick_keepsRecorder (s : State) : KeepsRecorder s s.takePlaybackTick := by
  unfold State.takePlaybackTick State.playbackTick
  split
  · exact KeepsRecorder.trans (t := s.reloadTempo) (.of_eq s.reloadTempo_recorder)
      (State.firingRun_keepsRecorder runFuel false (s.reloadTempo.onPlayer _))
  · exact id

theorem State.startPlay_keepsRecorder (first : Fin 32) (s : State) : KeepsRecorder s (s.startPlay first) := by
  unfold State.startPlay
  extract_lets t u
  have begun : KeepsRecorder s u := .of_eq t.reloadTempo_recorder
  exact (begun.trans (u.loadSegment_keepsRecorder false loadFuel)).trans (State.firingRun_keepsRecorder _ _ _)

/-! ### The action (R16) -/

theorem State.emitLive_keepsRecorder (n : NoteRequest) (s : State) : KeepsRecorder s (s.emitLive n) := by
  have offered (e : RecorderEvent) : KeepsRecorder s
      ((s.onVoice fun v => { v with liveRequests := v.liveRequests ++ [n] }).offer .live e) :=
    State.offer_keepsRecorder .live e (s.onVoice _)
  cases n with
  | strike k l => exact (offered _).trans (State.matchStrike_keepsRecorder k _)
  | release k l => exact offered _

theorem State.takeCrossing_keepsRecorder (key : Key) (g : Gate) (s : State) : KeepsRecorder s (s.takeCrossing key g) := by
  unfold State.takeCrossing
  split
  · simp only [State.crossing]
    have emitted (c : Scanner → Scanner) (l : List NoteRequest) :
        KeepsRecorder s (l.foldl (fun t n => t.emitLive n) (s.onScanner c)) :=
      KeepsRecorder.trans (.of_eq (s.onScanner_recorder c))
        (State.foldl_keepsRecorder _ (fun t n => t.emitLive_keepsRecorder n) l _)
    split
    · exact (emitted _ _).trans (.of_eq (State.g2Report_rail _).recorder)
    · exact emitted _ _
  · exact id

theorem State.takeStale_recorder (key : Key) (s : State) : (s.takeStale key).recorder = s.recorder := s.onScanner_recorder _

theorem State.takeGuard_recorder (key : Key) (s : State) : (s.takeGuard key).recorder = s.recorder := s.onScanner_recorder _

theorem State.takeKeyLeftovers_keepsRecorder (s : State) (key : Key) : KeepsRecorder s (s.takeKeyLeftovers key) :=
  ((((s.takeCrossing_keepsRecorder key .g2).trans (State.takeCrossing_keepsRecorder key .g1 _)).trans
    (State.takeCrossing_keepsRecorder key .g2 _)).trans (.of_eq (State.takeStale_recorder key _))).trans
    (.of_eq (State.takeGuard_recorder key _))

theorem State.takeSettle_recorder (s : State) : s.takeSettle.recorder = s.recorder := by
  unfold State.takeSettle State.settleExpires
  split
  · extract_lets t
    split
    · exact (State.quietGrant_rail _).recorder
    · rfl
  · rfl

end Sys2Proof.Machine
end

section
/-! PROOFS. Every request, every event and so every step keeps the Performance Recorder's invariant. -/

namespace Sys2Proof.Machine

/-! ### The requests of the recorder (R144 to R147) -/

theorem serveRecordStart_keepsRecorder (mask : Byte) (s : State) : KeepsRecorder s (serveRecordStart mask s).after := by
  unfold serveRecordStart
  split
  · exact id
  · split
    · exact id
    · exact fun _ => State.offerOpening_keepsRecorder _ (Recorder.start_ok _ s.perfClock s.recorder)

theorem serveRecordStop_keepsRecorder (s : State) : KeepsRecorder s (serveRecordStop s).after := by
  unfold serveRecordStop
  split
  · exact Recorder.stop_ok
  · exact id

theorem serveRecordFlush_keepsRecorder (s : State) : KeepsRecorder s (serveRecordFlush s).after := by
  unfold serveRecordFlush
  split
  · exact Recorder.flush_ok
  · exact id

theorem serveReadRecordBlock_keepsRecorder (s : State) : KeepsRecorder s (serveReadRecordBlock s).after := by
  unfold serveReadRecordBlock
  split
  · exact id
  · rename_i oldest
    exact fun ok => Recorder.free_ok ok fun active => nomatch (Recorder.oldestReady_ready oldest).symm.trans active

/-! ### The requests of the player (R160, R170, R171) -/

theorem servePlayStart_keepsRecorder (segment : Byte) (s : State) : KeepsRecorder s (servePlayStart segment s).after := by
  unfold servePlayStart
  split
  · exact id
  · split
    · exact s.startPlay_keepsRecorder _
    · exact id

theorem servePlayResume_keepsRecorder (s : State) : KeepsRecorder s (servePlayResume s).after := by
  unfold servePlayResume
  split
  · exact .of_eq (State.reloadTempo_recorder (s.onPlayer _))
  all_goals exact id

theorem servePlayStop_keepsRecorder (s : State) : KeepsRecorder s (servePlayStop s).after := by
  unfold servePlayStop
  split
  case h_5 => exact id
  all_goals exact s.playbackClearing_keepsRecorder

/-! ### Requests that leave the recorder alone -/

theorem serveSetRailMode_recorder (code : Byte) (s : State) : (serveSetRailMode code s).after.recorder = s.recorder := by
  unfold serveSetRailMode
  split
  · rfl
  · split
    case h_2 | h_4 => exact (State.quietGrant_rail _).recorder
    case h_5 => split <;> rfl
    all_goals rfl

theorem serveClearRailFault_recorder (s : State) : (serveClearRailFault s).after.recorder = s.recorder := by
  unfold serveClearRailFault
  split
  · split
    · rfl
    · exact s.enterHoming_rail.recorder
  · rfl

theorem State.startOperation_recorder (op : Operation) (s : State) : (s.startOperation op).recorder = s.recorder := by
  cases op with
  | startup => exact (State.beginLoad_wave _).recorder
  | loadZones => exact (State.beginLoad_wave _).recorder
  | learnRest => rfl
  | railCalibrate => exact (State.quietGrant_rail _).recorder

theorem serveStartOperation_recorder (code : Byte) (s : State) : (serveStartOperation code s).after.recorder = s.recorder := by
  unfold serveStartOperation
  split
  · rfl
  · split
    · rfl
    · split
      · rfl
      · exact s.startOperation_recorder _

theorem State.abortCalibration_recorder (s : State) : s.abortCalibration.recorder = s.recorder := by
  unfold State.abortCalibration
  split
  case h_3 => exact (State.quietGrant_rail _).recorder
  all_goals rfl

theorem State.abortOperation_recorder (op : Operation) (s : State) : (s.abortOperation op).recorder = s.recorder := by
  cases op with
  | loadZones => exact (State.endOperation_frame _ _ _).recorder.trans s.abortLoad_wave.recorder
  | learnRest => exact (State.endOperation_frame _ _ _).recorder
  | railCalibrate => exact (State.endOperation_frame _ _ _).recorder.trans s.abortCalibration_recorder
  | startup =>
    refine (State.endOperation_frame _ _ _).recorder.trans ?_
    split
    · exact s.abortLoad_wave.recorder
    · rfl

theorem serveAbortOperation_recorder (s : State) : (serveAbortOperation s).after.recorder = s.recorder := by
  unfold serveAbortOperation
  split
  · exact s.abortOperation_recorder _
  · rfl

theorem serveSetRegulation_recorder (first count : Byte) (entries : List RegFields) (s : State) :
    (serveSetRegulation first count entries s).after.recorder = s.recorder := by
  unfold serveSetRegulation
  split
  · split
    · simp only [Served.ok, Served.after, State.onTouch_recorder]
    · rfl
  · rfl

theorem serveGetKeyCounters_recorder (first count : Byte) (s : State) :
    (serveGetKeyCounters first count s).after.recorder = s.recorder := by
  unfold serveGetKeyCounters
  split
  · simp only [Served.give, Served.after, State.onScanner_recorder]
  · rfl

/-- Every request keeps the recorder's invariant: all but its own four and three of the player leave the recorder alone. -/
theorem serveRequest_keepsRecorder (r : Request) (s : State) : KeepsRecorder s (serveRequest r s).after := by
  cases r with
  | recordStart mask => exact serveRecordStart_keepsRecorder mask s
  | recordStop => exact serveRecordStop_keepsRecorder s
  | recordFlush => exact serveRecordFlush_keepsRecorder s
  | readRecordBlock => exact serveReadRecordBlock_keepsRecorder s
  | playStart segment => exact servePlayStart_keepsRecorder segment s
  | playResume => exact servePlayResume_keepsRecorder s
  | playStop => exact servePlayStop_keepsRecorder s
  | setRailMode code => exact .of_eq (serveSetRailMode_recorder code s)
  | clearRailFault => exact .of_eq (serveClearRailFault_recorder s)
  | startOperation code => exact .of_eq (serveStartOperation_recorder code s)
  | abortOperation => exact .of_eq (serveAbortOperation_recorder s)
  | setRegulation first count entries => exact .of_eq (serveSetRegulation_recorder first count entries s)
  | getKeyCounters first count => exact .of_eq (serveGetKeyCounters_recorder first count s)
  | readWaveStore address count => exact .of_eq (serveReadWaveStore_wave address count s).recorder
  | _ =>
    simp only [serveRequest, serveGetIdentity, serveGetStatus, serveResetPart, serveReadNotices, serveClearNotices,
      serveSetNoticeMask, serveGetOperationResult, serveGetKeyState, serveGetRegulation, serveSetTouchCurve,
      serveGetTouchCurve, serveGetPedalState, serveSetPedalMap, serveSetRailDrive, serveGetRailState, serveSetSoundOptions,
      serveGetVoiceState, serveGetZone, serveSetOutputGain, serveSetRoute, serveGetOutput, serveWritePassage,
      serveReadPassage, serveWriteSegment, serveReadSegment, serveSetSplit, serveSetMasterTempo, servePlayPause,
      servePlayReset, serveGetPlayStatus]
    repeat' split
    all_goals exact id

/-- The Control Link has no part in the recorder's invariant. -/
theorem recorder_linkFree : LinkFree fun s => s.recorder.ok := ⟨fun _ _ => id, serveRequest_keepsRecorder⟩

/-! ### Part reset (R136, R193) -/

theorem State.partReset_recorderOk (pins : Pins) (s : State) : (s.partReset pins).recorder.ok := by
  have reset : (s.partReset pins).recorder = Recorder.reset := (State.enterHoming_rail _).recorder
  rw [reset]
  exact Recorder.reset_ok

/-! ### The clocks and the scan -/

theorem State.takeTickLeftovers_keepsRecorder (s : State) : KeepsRecorder s s.takeTickLeftovers :=
  (((State.foldl_keepsRecorder _ State.takeKeyLeftovers_keepsRecorder allKeys s).trans
    (.of_eq (State.takeSettle_recorder _))).trans (State.takePlaybackTick_keepsRecorder _)).trans
    (recorder_linkFree.takeInterByte _)

theorem State.tick_recorder (g1 g2 : BitVec 88) (s : State) : (s.tick g1 g2).recorder = s.recorder := by
  simp only [State.tick, State.onLink, State.onPlayer, State.onScanner]

theorem State.takeLearning_recorder (s : State) : s.takeLearning.recorder = s.recorder := by
  unfold State.takeLearning
  split
  · rename_i l _
    split
    · by_cases slot : s.link.slot = .running .startup
      · rw [s.completeLearning_startup l slot]
        exact (State.endOperation_frame _ _ (s.learned l)).recorder
      · rw [s.completeLearning_alone l slot]
        exact (State.endOperation_frame _ _ (s.learned l)).recorder
    · rfl
  · rfl

theorem State.takeScanLeftovers_keepsRecorder (s : State) : KeepsRecorder s s.takeScanLeftovers :=
  ((s.takeSostenuto_keepsRecorder.trans (.of_eq (State.takeSwitch_rail .opened _).recorder)).trans
    (.of_eq (State.takeSwitch_rail .closed _).recorder)).trans (.of_eq (State.takeLearning_recorder _))

/-- The switches and the rest learning have no part in the recorder (R21, R57). -/
theorem State.scanRest_recorder (samples : ScanSamples) (s : State) :
    ((s.scanSwitches samples).scanLearning samples).recorder = s.recorder := by
  rw [State.scanLearning, State.scanSwitches, State.onScanner_recorder, State.onRail_recorder]

theorem State.scan_keepsRecorder (samples : ScanSamples) (s : State) : KeepsRecorder s (s.scan samples) :=
  (s.takeScanLeftovers_keepsRecorder.trans (State.scanSensors_keepsRecorder samples _)).trans
    (.of_eq (State.scanRest_recorder samples _))

theorem State.envelopeTick_recorder (s : State) : s.perfTick.envelope.recorder = s.recorder :=
  (State.envelope_wave _).recorder.trans s.takeMoveTimer_rail.recorder

/-! ### Voices and arrivals -/

theorem State.takeRequestOf_recorder (source : Source) (n : NoteRequest) (take : State → State) (s : State)
    (same : ∀ t, (take t).recorder = t.recorder) : (s.takeRequestOf source n take).recorder = s.recorder := by
  unfold State.takeRequestOf
  split
  · exact same (s.onVoice _)
  · rfl

theorem State.takeStrike_recorder (source : Source) (key : Key) (level : Byte) (s : State) :
    (s.takeStrike source key level).recorder = s.recorder := by
  obtain ⟨v, w, h⟩ := s.takeStrike_frame source key level
  rw [h]

theorem State.takeRelease_recorder (source : Source) (key : Key) (level : Byte) (s : State) :
    (s.takeRelease source key level).recorder = s.recorder := by
  obtain ⟨v, h⟩ := s.takeRelease_frame source key level
  rw [h]

theorem State.endLoad_recorder (summary : LoadSummary) (s : State) : (s.endLoad summary).recorder = s.recorder := by
  obtain ⟨frame, -⟩ := s.endLoad_ended summary
  rw [frame]

theorem State.loadTakes_recorder (data : List Byte) (s : State) : (s.loadTakes data).recorder = s.recorder := by
  unfold State.loadTakes
  split
  · rfl
  · split
    · unfold State.headerArrives
      extract_lets count total
      split
      · split
        · exact s.endLoad_recorder _
        · rfl
      · exact s.endLoad_recorder _
    · unfold State.entriesArrive
      extract_lets entries valid done skipped t
      split
      · exact t.endLoad_recorder _
      · rfl

theorem State.loadReadArrives_recorder (data : List Byte) (s : State) : (s.loadReadArrives data).recorder = s.recorder := by
  unfold State.loadReadArrives
  split
  · split
    · refine (State.freePort_wave _).recorder.trans ?_
      split
      · rfl
      · exact s.loadTakes_recorder data
    · rfl
  · rfl

theorem State.diagnosticArrives_recorder (data : List Byte) (s : State) :
    (s.diagnosticArrives data).recorder = s.recorder := by
  unfold State.diagnosticArrives
  split
  · split
    · extract_lets t
      have same : t.recorder = s.recorder := s.freePort_wave.recorder
      split <;> exact same
    · rfl
  · rfl

/-! ### The step -/

theorem unlessReset_keepsRecorder (f : State → State) (s t : State) (keeps : KeepsRecorder s (f s))
    (h : unlessReset f s = .next t) : KeepsRecorder s t := by
  unfold unlessReset at h
  cases h
  split
  · exact id
  · exact keeps

/-- Every command keeps the recorder's invariant. -/
theorem exec_keepsRecorder (c : Instr) (s t : State) (h : exec c s = .next t) : KeepsRecorder s t := by
  cases c with
  | resetNLow => cases h; exact fun _ => Recorder.reset_ok
  | resetNHigh pins =>
    cases h
    split
    · exact fun _ => s.partReset_recorderOk pins
    · exact id
  | receiveByte byte stopHigh =>
    refine unlessReset_keepsRecorder _ s t ?_ h
    split
    · exact recorder_linkFree.takeByte byte s
    · exact recorder_linkFree.brokenByte s
  | interByteTimerExpiry => exact unlessReset_keepsRecorder _ s t (recorder_linkFree.takeInterByte s) h
  | replySent pins =>
    exact unlessReset_keepsRecorder _ s t (recorder_linkFree.replySent (fun pins s _ => s.partReset_recorderOk pins) pins s) h
  | unknownKind kind payload => exact unlessReset_keepsRecorder _ s t (recorder_linkFree.arriveBody kind payload s) h
  | gateSample g1 g2 =>
    exact unlessReset_keepsRecorder (fun s => s.takeTickLeftovers.tick g1 g2) s t
      (s.takeTickLeftovers_keepsRecorder.trans (.of_eq (State.tick_recorder g1 g2 _))) h
  | gateCrossing key gate => exact unlessReset_keepsRecorder _ s t (s.takeCrossing_keepsRecorder key gate) h
  | staleMarkSet key => exact unlessReset_keepsRecorder _ s t (.of_eq (s.takeStale_recorder key)) h
  | guardMarkSet key => exact unlessReset_keepsRecorder _ s t (.of_eq (s.takeGuard_recorder key)) h
  | settleTimerExpiry => exact unlessReset_keepsRecorder _ s t (.of_eq s.takeSettle_recorder) h
  | scan samples => exact unlessReset_keepsRecorder _ s t (s.scan_keepsRecorder samples) h
  | learnRestComplete => exact unlessReset_keepsRecorder _ s t (.of_eq s.takeLearning_recorder) h
  | sostenutoConfirmed sample => exact unlessReset_keepsRecorder _ s t (s.confirmSostenuto_keepsRecorder sample) h
  | endSwitchConfirmed switch => exact unlessReset_keepsRecorder _ s t (.of_eq (s.takeSwitch_rail switch).recorder) h
  | railGuardAsserted =>
    cases h
    split
    · exact id
    · exact .of_eq (State.railFaults_rail _ _).recorder
  | railGuardReleased => cases h; exact id
  | moveTimerExpiry => exact unlessReset_keepsRecorder _ s t (.of_eq s.takeMoveTimer_rail.recorder) h
  | voiceStrike source key level =>
    exact unlessReset_keepsRecorder _ s t
      (.of_eq (s.takeRequestOf_recorder _ _ _ (State.takeStrike_recorder source key level))) h
  | voiceRelease source key level =>
    exact unlessReset_keepsRecorder (State.takeRequestOf source (.release key level) (State.takeRelease source key level)) s t
      (.of_eq (s.takeRequestOf_recorder _ _ _ (State.takeRelease_recorder source key level))) h
  | envelopeTick => exact unlessReset_keepsRecorder (fun s => s.perfTick.envelope) s t (.of_eq s.envelopeTick_recorder) h
  | audioFrame =>
    cases h
    split
    · exact id
    · obtain ⟨a, v, w, e⟩ := s.audioFrame_frame
      exact .of_eq (by rw [e])
  | fetchArrival data => exact unlessReset_keepsRecorder _ s t (.of_eq (s.fetchArrives_wave data).recorder) h
  | loadReadArrival data => exact unlessReset_keepsRecorder _ s t (.of_eq (s.loadReadArrives_recorder data)) h
  | diagnosticReadArrival data => exact unlessReset_keepsRecorder _ s t (.of_eq (s.diagnosticArrives_recorder data)) h
  | playbackTick => exact unlessReset_keepsRecorder _ s t s.takePlaybackTick_keepsRecorder h
  | _ => exact unlessReset_keepsRecorder _ s t (recorder_linkFree.arrive _ s) h

/-- Settles O58: every command keeps the invariant, and a step takes one command or idles. -/
theorem everyStepKeepsTheRecorder : Obligations.EveryStepKeepsTheRecorder := by
  intro s t ok h
  unfold step at h
  split at h
  · cases h
    exact ok
  · exact exec_keepsRecorder _ _ t h ok

end Sys2Proof.Machine
end

section
/-! PROOFS. Events offered to the recorder (R138, R139, R141, R142): what is written into the blocks, and what is lost. -/

namespace Sys2Proof.Machine

/-! ### A loss (R142) -/

/-- What a loss leaves: no block ACTIVE, the loss counted, the first one stamped and raised, and the recording at an end with the
count at its most. -/
def Recorder.Loses (now : Time) (r : Recorder) (w : Recorder × Bool) : Prop :=
  w.1.activeBlock = none ∧ w.1.lostCount = r.lostCount + 1
  ∧ w.1.firstLost = (if r.lostCount = 0 then some now else r.firstLost) ∧ w.2 = decide (r.lostCount = 0)
  ∧ w.1.recording = decide (r.lostCount + 1 < 65535)

section
variable {now : Time} {e : RecorderEvent} {r : Recorder} (recording : r.recording = true) (few : r.lostCount < 65535)

include recording few in
theorem Recorder.lose_loses {q : Recorder} (same : r.SameLosses q) (none' : q.activeBlock = none) :
    r.Loses now (q.lose now) := by
  have counted : bump r.lostCount = r.lostCount + 1 := if_pos few
  have goesOn : (r.lostCount + 1 != Config.counterMax) = decide (r.lostCount + 1 < 65535) := by
    rw [Bool.eq_iff_iff, bne_iff_ne, decide_eq_true_eq, Config.counterMax]
    omega
  simp only [Recorder.Loses, Recorder.lose, same.lostCount, same.firstLost, same.recording, counted, recording, goesOn,
    Bool.true_and, and_true]
  exact none'

include recording few in
/-- With no block ACTIVE an event is lost, and nothing is written. -/
theorem Recorder.take_none (none' : r.activeBlock = none) : r.take now e = r.lose now ∧ r.Loses now (r.take now e) := by
  have lost : r.take now e = r.lose now := Recorder.take_of_cut (Recorder.writeTimed_none _ _ none')
  exact ⟨lost, lost ▸ Recorder.lose_loses recording few ⟨rfl, rfl, rfl⟩ none'⟩

include recording few in
/-- An event taken is lost, or it is the last record of a block. -/
theorem Recorder.take_cases (ok : r.ok) : r.Loses now (r.take now e)
    ∨ (∃ delta, (r.take now e).1.Ends (e.record delta)) ∧ (r.take now e).1.lastWritten = now
      ∧ r.SameLosses (r.take now e).1 ∧ (r.take now e).2 = false := by
  have wrote := Recorder.writeTimed_timedFuel now e.record (r.ok_iff.1 ok).1
  cases h : r.writeTimed now e.record timedFuel with
  | mk q written =>
    rw [h] at wrote
    obtain ⟨-, same, ends, cut⟩ := wrote
    cases written with
    | true =>
      rw [Recorder.take_of_written h]
      exact .inr ⟨(ends rfl).1, (ends rfl).2, same, rfl⟩
    | false =>
      rw [Recorder.take_of_cut h]
      exact .inl (Recorder.lose_loses recording few same (cut rfl))

end

/-! ### The records of an event (R139, R141) -/

/-- The records that an event taken at a time writes. -/
def Recorder.eventRecords (now : Time) (e : RecorderEvent) (r : Recorder) : List Record :=
  timedRecords e.record (ageOf now r.lastWritten)

section
variable {now : Time} {e : RecorderEvent} {n : BlockName} {r : Recorder} (ok : r.ok) (active : r.activeBlock = some n)

theorem Recorder.take_of_appendAll {q : Recorder} (all : r.appendAll (r.eventRecords now e) = some q)
    (few : (r.eventRecords now e).length ≤ 97) : r.take now e = (q.writtenAt now, false) :=
  Recorder.take_of_written (Recorder.writeTimed_all timedFuel r q all few)

include ok active

theorem Recorder.take_fits (fits : (r.block n).records.length + (r.eventRecords now e).length < 48) :
    r.take now e = ((r.holding n ((r.block n).records ++ r.eventRecords now e)).writtenAt now, false) := by
  have all := Recorder.appendAll_fits (ok.active active).2.1 _ _ fits
  rw [Recorder.holding_records (Recorder.state_of_activeBlock active)] at all
  exact Recorder.take_of_appendAll all (by omega)

theorem Recorder.take_goesOn (empty : (r.block n.other).state = .empty)
    (past : 48 ≤ (r.block n).records.length + (r.eventRecords now e).length)
    (fits : (r.block n).records.length + (r.eventRecords now e).length < 96) : r.take now e
      = (((r.filled n (((r.block n).records ++ r.eventRecords now e).take 48) none).holding n.other
        (((r.block n).records ++ r.eventRecords now e).drop 48)).writtenAt now, false) := by
  obtain ⟨-, -, room, -⟩ := ok.active active
  have all := Recorder.appendAll_goesOn n r _ _ empty room past fits
  rw [Recorder.holding_records (Recorder.state_of_activeBlock active)] at all
  exact Recorder.take_of_appendAll all (by omega)

theorem Recorder.take_fills (ready : (r.block n.other).state.isReady = true)
    (fills : (r.block n).records.length + (r.eventRecords now e).length = 48) : r.take now e
      = ((r.filled n ((r.block n).records ++ r.eventRecords now e) (some n.other)).writtenAt now, false) := by
  obtain ⟨-, -, room, -⟩ := ok.active active
  have all := Recorder.appendAll_last n r _ _ ready room fills
  rw [Recorder.holding_records (Recorder.state_of_activeBlock active)] at all
  exact Recorder.take_of_appendAll all (by omega)

/-- An event whose GAP records fill the last block is lost: the block keeps what of them it could take, and the stamp the time
that they reach. -/
theorem Recorder.take_overflows (ready : (r.block n.other).state.isReady = true)
    (many : 48 < (r.block n).records.length + (r.eventRecords now e).length) : r.take now e
      = ((r.filled n (((r.block n).records ++ r.eventRecords now e).take 48) (some n.other)).writtenAt
        (r.lastWritten + BitVec.ofNat 32 (min (ageOf now r.lastWritten - timeDelta (ageOf now r.lastWritten))
          (65535 * (48 - (r.block n).records.length))))).lose now
    ∧ r.Loses now (r.take now e) := by
  obtain ⟨recording, other, room, noneLost⟩ := ok.active active
  rw [Recorder.eventRecords, length_timedRecords] at many
  have inside : 48 - (r.block n).records.length ≤ (timeGaps (ageOf now r.lastWritten)).length := by omega
  have front : ((r.block n).records ++ r.eventRecords now e).take 48 = (r.block n).records
      ++ ((timeGaps (ageOf now r.lastWritten)).take (48 - (r.block n).records.length)).map gapRecord := by
    rw [List.take_append, List.take_of_length_le room.le, Recorder.eventRecords, timedRecords,
      List.take_append_of_le_length (by rwa [List.length_map]), List.map_take]
  have all := Recorder.appendAll_last n r (r.block n).records
    (((timeGaps (ageOf now r.lastWritten)).take (48 - (r.block n).records.length)).map gapRecord) ready room
    (by rw [List.length_map, List.length_take_of_le inside]; omega)
  rw [Recorder.holding_records (Recorder.state_of_activeBlock active), ← front] at all
  have none' := Recorder.activeBlock_filled (((r.block n).records ++ r.eventRecords now e).take 48) (some n.other) other
  have lost := Recorder.take_of_cut (e := e) (Recorder.writeTimed_cut _ timedFuel r _ all none' inside
    ((Nat.sub_le _ _).trans (by decide)))
  refine ⟨lost, ?_⟩
  rw [lost]
  exact Recorder.lose_loses recording (by omega) ((Recorder.sameLosses_filled ..).trans (Recorder.sameLosses_writtenAt ..)) none'

end

/-! ### The obligation -/

theorem SourceMask.includes_live (m : SourceMask) : m.includes .live = true ↔ m = .both ∨ m = .live := by
  cases m <;> decide

theorem SourceMask.includes_playback (m : SourceMask) : m.includes .playback = true ↔ m = .both ∨ m = .playback := by
  cases m <;> decide

/-- Settles O48: an event taken by the ACTIVE block, the room after it and the other block; an offer by the recording and its
mask. -/
theorem eventsAreWrittenOrLost : Obligations.EventsAreWrittenOrLost := by
  refine ⟨fun r now e ok recording few => ?_, fun s e => ?_⟩
  · intro t first remaining rest delta lost
    refine ⟨fun none' => ?_, fun n active => ?_, ?_⟩
    · obtain ⟨taken, loses⟩ := Recorder.take_none (now := now) (e := e) recording few none'
      have same : t = (r.lose now).1 := congrArg Prod.fst taken
      exact ⟨loses, same ▸ rfl, same ▸ rfl, same ▸ rfl⟩
    · intro other written
      have records : written = (r.block n).records ++ r.eventRecords now e := by
        rw [Recorder.eventRecords, timedRecords_eq, ← List.append_assoc, ← List.append_assoc]
        rfl
      have length : written.length = (r.block n).records.length + (r.eventRecords now e).length := by
        rw [records, List.length_append]
      have taken {w : Recorder × Bool} (h : r.take now e = w) : t = w.1 ∧ first = w.2 := h ▸ ⟨rfl, rfl⟩
      rw [records] at length ⊢
      rw [length]
      refine ⟨fun fits => taken (Recorder.take_fits ok active fits), fun past empty fits => ?_,
        fun ready => ⟨fun fills => taken (Recorder.take_fills ok active ready fills), fun many => ?_⟩⟩
      · refine (taken (Recorder.take_goesOn ok active empty past fits)).imp_left fun h => h.trans ?_
        cases n <;> rfl
      · obtain ⟨overflows, loses⟩ := Recorder.take_overflows ok active ready many
        refine ⟨loses, ?_⟩
        rw [(taken overflows).1]
        cases n <;> exact ⟨rfl, rfl, rfl, rfl, rfl⟩
    · refine (Recorder.take_cases recording few ok).imp_right ?_
      rintro ⟨⟨delta, n, last⟩, stamp, losses, noLoss⟩
      exact ⟨⟨n, delta, last⟩, stamp, losses.lostCount, losses.firstLost, losses.recording.trans recording, noLoss⟩
  · intro taken included
    refine ⟨fun source => (s.offer_eq source e).trans ?_, fun segment pass => s.offerMark_eq segment pass⟩
    refine if_congr (Bool.and_eq_true_iff.trans (and_congr_right' ?_)) rfl rfl
    cases source
    · exact s.recorder.mask.includes_live
    · exact s.recorder.mask.includes_playback

end Sys2Proof.Machine
end

section
/-! PROOFS. The Practice Player's invariant (R150, R151, R154, R158, R166, R167): its parts, and what each change of the player
leaves of it. -/

namespace Sys2Proof.Machine

/-! ### The parts of the invariant -/

/-- The parts of the Practice Player's invariant, each by its name. -/
structure Player.Consistent (p : Player) : Prop where
  passage : passageWf p.passage = true
  tempo : p.tempo.isSome ↔ p.state = .running
  waits : p.expected ≠ [] ↔ p.state = .waiting ∨ p.state = .pausedWaiting
  silent : p.state = .idle ∨ p.state = .haltedBadEvent ∨ p.state = .haltedChainEmpty → p.held = []
  held : p.held.Pairwise (· < ·)
  expected : p.expected.Pairwise (· < ·)
  ranges : p.rangesOk

theorem Player.ok_iff (p : Player) : p.ok ↔ p.Consistent :=
  ⟨fun ⟨passage, tempo, waits, silent, held, expected, ranges⟩ =>
      ⟨passage, tempo, waits, silent, held, expected, ranges⟩,
    fun c => ⟨c.passage, c.tempo, c.waits, c.silent, c.held, c.expected, c.ranges⟩⟩

theorem Player.ok.consistent {p : Player} (ok : p.ok) : p.Consistent := p.ok_iff.1 ok

/-- A player that neither waits nor is paused in a wait expects no key. -/
theorem Player.Consistent.expected_nil {p : Player} (c : p.Consistent) (waits : p.state ≠ .waiting)
    (paused : p.state ≠ .pausedWaiting) : p.expected = [] := by
  by_contra expects
  exact (c.waits.1 expects).elim waits paused

/-- The tempo counter of a player that does not run has stopped. -/
theorem Player.Consistent.tempo_none {p : Player} (c : p.Consistent) (stopped : p.state ≠ .running) : p.tempo = none :=
  Option.not_isSome_iff_eq_none.1 fun runs => stopped (c.tempo.1 runs)

/-- A player that runs: its tempo counter does too, and it expects no key. -/
theorem Player.ok_running {p : Player} (passage : passageWf p.passage = true) (ranges : p.rangesOk)
    (state : p.state = .running) (tempo : p.tempo.isSome = true) (none' : p.expected = []) (held : p.held.Pairwise (· < ·)) :
    p.ok := by
  refine p.ok_iff.2 ⟨passage, iff_of_true tempo state, ?_, ?_, held, none' ▸ .nil, ranges⟩ <;> simp [state, none']

/-- A player whose tempo counter has stopped before any key is expected: it rests without held keys, or is paused. -/
theorem Player.ok_stopped {p : Player} (passage : passageWf p.passage = true) (ranges : p.rangesOk)
    (state : p.held = [] ∧ (p.state = .idle ∨ p.state = .haltedBadEvent ∨ p.state = .haltedChainEmpty)
      ∨ p.state = .pausedRunning)
    (tempo : p.tempo = none) (none' : p.expected = []) (held : p.held.Pairwise (· < ·)) : p.ok := by
  refine p.ok_iff.2 ⟨passage, ?_, ?_, ?_, held, none' ▸ .nil, ranges⟩
  all_goals
    obtain ⟨empty, state | state | state⟩ | state := state
    all_goals simp [*]

/-- A player that waits for keys, paused or not: its tempo counter has stopped. -/
theorem Player.ok_waits {p : Player} (passage : passageWf p.passage = true) (ranges : p.rangesOk)
    (state : p.state = .waiting ∨ p.state = .pausedWaiting) (tempo : p.tempo = none) (waits : p.expected ≠ [])
    (held : p.held.Pairwise (· < ·)) (expected : p.expected.Pairwise (· < ·)) : p.ok := by
  refine p.ok_iff.2 ⟨passage, ?_, iff_of_true waits state, ?_, held, expected, ranges⟩
  all_goals
    obtain state | state := state
    all_goals simp [state, tempo]

theorem Player.reset_ok : Player.reset.ok := by
  have same : ∀ i : Fin 32, Player.reset.segments[i] = Segment.reset := fun i => by simp [Player.reset]
  refine Player.ok_stopped rfl ⟨by decide, fun i => ?_⟩ (.inl ⟨rfl, .inl rfl⟩) rfl rfl .nil
  rw [same]
  decide

/-- The invariant of the player is kept from one state to another. -/
def KeepsPlayer (s t : State) : Prop := s.player.ok → t.player.ok

theorem KeepsPlayer.trans {s t u : State} (h : KeepsPlayer s t) (g : KeepsPlayer t u) : KeepsPlayer s u := g ∘ h

theorem KeepsPlayer.of_eq {s t : State} (same : t.player = s.player) : KeepsPlayer s t := fun ok => same ▸ ok

theorem State.foldl_keepsPlayer {α : Type} (f : State → α → State) (keeps : ∀ s a, KeepsPlayer s (f s a)) (l : List α)
    (s : State) : KeepsPlayer s (l.foldl f s) := by
  induction l generalizing s with
  | nil => exact id
  | cons a l ih => exact (keeps s a).trans (ih (f s a))

/-! ### Work that leaves the player alone -/

theorem PedalWork.player {s t : State} (h : PedalWork s t) : t.player = s.player := by
  obtain ⟨d, r, n, rfl⟩ := h
  rfl

theorem LinkWork.player {s t : State} (h : LinkWork s t) : t.player = s.player := by
  obtain ⟨n, slot, rfl⟩ := h
  rfl

theorem RailWork.player {s t : State} (h : RailWork s t) : t.player = s.player := by
  obtain ⟨r, n, slot, rfl, -⟩ := h
  rfl

theorem WaveWork.player {s t : State} (h : WaveWork s t) : t.player = s.player := by
  obtain ⟨v, w, rfl⟩ := h
  rfl

theorem State.offer_player (source : Source) (e : RecorderEvent) (s : State) : (s.offer source e).player = s.player := by
  obtain ⟨r, n, h⟩ := s.offer_frame source e
  rw [h]

theorem State.offerMark_player (segment pass : Byte) (s : State) : (s.offerMark segment pass).player = s.player := by
  obtain ⟨r, n, h⟩ := s.offerMark_frame segment pass
  rw [h]

theorem State.handPlayback_player (n : NoteRequest) (s : State) : (s.handPlayback n).player = s.player :=
  State.offer_player .playback _ _

/-! ### The tempo counter (R158) -/

/-- The tempo counter's fresh period without a working copy: a free value, within R158's limits. -/
theorem State.reloadTempo_free (s : State) (copy : s.player.copy = none) : ∃ period, 500 ≤ period ∧ period ≤ 4000
    ∧ s.reloadTempo = { s with draws := s.draws + 1, player := { s.player with tempo := some period } } := by
  obtain ⟨least, most⟩ : 25 ≤ effectiveTempo (Config.tempoWithoutCopy s.draws) s.player.masterTempo
      ∧ effectiveTempo (Config.tempoWithoutCopy s.draws) s.player.masterTempo ≤ 200 := clamp_bounds (by decide)
  refine ⟨reloadOf (effectiveTempo (Config.tempoWithoutCopy s.draws) s.player.masterTempo), ?_, ?_, ?_⟩
  · exact (Nat.le_div_iff_mul_le (by omega)).2 (by omega)
  · exact Nat.div_le_of_le_mul (by omega)
  · rw [State.reloadTempo, copy]
    rfl

/-- The tempo counter runs with a fresh period, and nothing else of the player changes. -/
theorem State.reloadTempo_player (s : State) : ∃ period, s.reloadTempo.player = { s.player with tempo := some period } := by
  cases copy : s.player.copy with
  | none =>
    obtain ⟨period, -, -, reloads⟩ := s.reloadTempo_free copy
    exact ⟨period, by rw [reloads]⟩
  | some c => exact ⟨_, by rw [s.reloadTempo_copy c.1 c.2 copy, State.onPlayer_player]⟩

/-! ### The playback clearing (R166, R172) -/

/-- The playback clearing empties the key sets and stops the times. -/
theorem State.playbackClearing_player (s : State) : s.playbackClearing.player
    = { s.player with held := [], expected := [], tempo := none, countdown := 0, gap := 0 } := by
  rw [State.playbackClearing_eq, (State.offers_pedalWork _ _ _).player]
  rfl

/-- A playback clearing into a state without held keys. -/
theorem State.playbackClearing_silent (state : PlayerState) (s : State)
    (silent : state = .idle ∨ state = .haltedBadEvent ∨ state = .haltedChainEmpty) :
    KeepsPlayer s (s.playbackClearing.onPlayer fun p => { p with state := state }) := by
  intro ok
  rw [State.onPlayer_player, State.playbackClearing_player]
  exact Player.ok_stopped ok.consistent.passage ok.consistent.ranges (.inl ⟨rfl, silent⟩) rfl rfl .nil

theorem State.playEnds_keepsPlayer (s : State) : KeepsPlayer s s.playEnds :=
  s.playbackClearing_silent .idle (.inl rfl)

theorem State.playerHalts_keepsPlayer (halted : PlayerState) (s : State)
    (halts : halted = .haltedBadEvent ∨ halted = .haltedChainEmpty) : KeepsPlayer s (s.playerHalts halted) :=
  s.playbackClearing_silent halted (.inr halts)

/-! ### Ranges (R161, R162, R165) -/

theorem State.beginRange_keepsPlayer (zeroBegun : Bool) (s : State) : KeepsPlayer s (s.beginRange zeroBegun).1 := by
  intro ok
  unfold State.beginRange
  simp only [State.onPlayer_player, State.offerMark_player]
  exact ok

/-- A load writes the working copy, whose range is that of a segment (R154, R161). -/
theorem State.loadSegment_keepsPlayer (zeroBegun : Bool) (fuel : Nat) (s : State) :
    KeepsPlayer s (s.loadSegment zeroBegun fuel).1 := by
  induction fuel generalizing s with
  | zero => exact id
  | succ fuel ih =>
    unfold State.loadSegment
    split
    · exact s.playEnds_keepsPlayer
    · rename_i n _
      extract_lets seg t
      split
      · split
        · exact t.playerHalts_keepsPlayer _ (.inr rfl)
        · exact ih t
      · refine KeepsPlayer.trans ?_ (State.beginRange_keepsPlayer zeroBegun _)
        rintro ⟨passage, tempo, waits, silent, held, expected, ranges⟩
        exact ⟨passage, tempo, waits, silent, held, expected, ranges.2 n, ranges.2⟩

theorem State.endRange_keepsPlayer (zeroBegun : Bool) (s : State) : KeepsPlayer s (s.endRange zeroBegun).1 := by
  unfold State.endRange
  split
  · exact fun ok => State.beginRange_keepsPlayer zeroBegun _ ok
  · split
    · exact fun ok => State.beginRange_keepsPlayer zeroBegun _ ok
    · exact fun ok => State.loadSegment_keepsPlayer zeroBegun loadFuel _ ok

/-! ### A firing run (R159, R163, R164, R167) -/

/-- A fired record leaves the held-key set as it is, or a key joins it, or one leaves it. -/
theorem State.fireRecord_held (r : Record) (s f : State) (fires : s.fireRecord r = some f) :
    f.player.held = s.player.held
      ∨ ∃ k, f.player.held = insertKey k s.player.held ∨ f.player.held = removeKey k s.player.held := by
  unfold State.fireRecord at fires
  split at fires
  case h_2 | h_3 =>
    split at fires
    · cases fires
    · rename_i k _
      split at fires <;> cases fires
      · exact .inr ⟨k, by simp only [State.onPlayer_player, State.handPlayback_player, true_or, or_true]⟩
      · exact .inl rfl
  case h_4 =>
    split at fires <;> cases fires
    all_goals exact .inl (congrArg Player.held (State.offer_player ..))
  all_goals cases fires
  all_goals exact .inl rfl

theorem State.fireRecord_keepsPlayer (r : Record) (s f : State) (running : s.player.state = .running)
    (fires : s.fireRecord r = some f) : KeepsPlayer s f := by
  intro ok
  have ⟨passage, tempo, _, _, held, _, ranges⟩ := ok.consistent
  have none' : s.player.expected = [] := ok.consistent.expected_nil (running ▸ nofun) (running ▸ nofun)
  have ascending : f.player.held.Pairwise (· < ·) := by
    obtain same | ⟨k, joins | leaves⟩ := s.fireRecord_held r f fires
    · exact same ▸ held
    · exact joins ▸ insertKey_ascending k held
    · exact leaves ▸ removeKey_ascending k held
  rw [s.fireRecord_player r f fires]
  exact Player.ok_running passage ranges running (tempo.2 running) none' ascending

/-- A wait expects the due record's key at least, and the keys it gathers in ascending order (R167). -/
theorem State.beginWait_keepsPlayer (k : Key) (s : State) : KeepsPlayer s (s.beginWait k) := by
  intro ok
  obtain ⟨n, -, begins⟩ := s.beginWait_eq k
  have due : k ∈ s.player.gathers (fun k => !s.player.sounds k) k n := by simp [Player.gathers, allKeys]
  have ascending : (s.player.gathers (fun k => !s.player.sounds k) k n).Pairwise (· < ·) := allKeys_filter_ascending _
  rw [begins]
  exact Player.ok_waits ok.consistent.passage ok.consistent.ranges (.inl rfl) rfl (List.ne_nil_of_mem due) ok.consistent.held
    ascending

theorem State.firingRun_keepsPlayer (fuel : Nat) (zeroBegun : Bool) (s : State) :
    KeepsPlayer s (s.firingRun fuel zeroBegun) := by
  induction fuel generalizing s zeroBegun with
  | zero => exact id
  | succ fuel ih =>
    by_cases due : s.player.state = .running ∧ s.player.countdown = 0
    · rw [State.firingRun_fires _ _ _ due.1 due.2]
      split
      · exact s.beginWait_keepsPlayer _
      · split
        · exact s.playerHalts_keepsPlayer _ (.inl rfl)
        · rename_i f fires
          have fired := s.fireRecord_keepsPlayer _ f due.1 fires
          split
          · exact fired.trans fun ok => ih _ _ ok
          · exact (fired.trans (f.endRange_keepsPlayer zeroBegun)).trans (ih _ _)
    · rw [State.firingRun_stops _ _ _ due]
      exact id

/-! ### Play starts, resumes and ticks (R158 to R160, R168) -/

/-- A player that goes on or begins to run, with a fresh period and no key expected. -/
theorem State.reloadTempo_ok (s : State) (passage : passageWf s.player.passage = true) (ranges : s.player.rangesOk)
    (running : s.player.state = .running) (none' : s.player.expected = []) (held : s.player.held.Pairwise (· < ·)) :
    s.reloadTempo.player.ok := by
  obtain ⟨period, reloads⟩ := s.reloadTempo_player
  rw [reloads]
  exact Player.ok_running passage ranges running rfl none' held

theorem State.startPlay_keepsPlayer (first : Fin 32) (s : State) : KeepsPlayer s (s.startPlay first) := by
  unfold State.startPlay
  extract_lets t u
  have begun : KeepsPlayer s u := fun ok =>
    t.reloadTempo_ok ok.consistent.passage ok.consistent.ranges rfl rfl ok.consistent.held
  exact (begun.trans (u.loadSegment_keepsPlayer false loadFuel)).trans (State.firingRun_keepsPlayer _ _ _)

theorem State.matchStrike_keepsPlayer (k : Key) (s : State) : KeepsPlayer s (s.matchStrike k) := by
  by_cases waiting : s.player.state = .waiting
  · by_cases expected : k ∈ s.player.expected
    · rw [s.matchStrike_expected k waiting expected]
      intro ok
      have ⟨passage, _, _, _, held, ascending, ranges⟩ := ok.consistent
      extract_lets t
      split
      · rename_i empty
        refine State.firingRun_keepsPlayer _ _ _ (State.reloadTempo_ok _ passage ranges rfl ?_ held)
        exact List.isEmpty_iff.1 empty
      · rename_i left
        have stopped : s.player.tempo = none := ok.consistent.tempo_none (waiting ▸ nofun)
        exact Player.ok_waits passage ranges (.inl waiting) stopped (fun empty => left (List.isEmpty_iff.2 empty)) held
          (removeKey_ascending k ascending)
    · rw [s.matchStrike_wrong k waiting expected]
      exact id
  · rw [s.matchStrike_ignored k waiting]
    exact id

theorem State.takePlaybackTick_keepsPlayer (s : State) : KeepsPlayer s s.takePlaybackTick := by
  unfold State.takePlaybackTick State.playbackTick
  split
  · rename_i due
    refine KeepsPlayer.trans (t := s.reloadTempo) (fun ok => ?_) fun ok => State.firingRun_keepsPlayer _ _ _ ok
    have ⟨passage, tempo, _, _, held, _, ranges⟩ := ok.consistent
    have running : s.player.state = .running := tempo.1 (by rw [due]; rfl)
    exact s.reloadTempo_ok passage ranges running
      (ok.consistent.expected_nil (running ▸ nofun) (running ▸ nofun)) held
  · exact id

end Sys2Proof.Machine
end

section
/-! PROOFS. What the dispatcher and the receiver do with a request (R177 to R181): they change the Control Link, and then take
one request at most, whose length they examine. -/

namespace Sys2Proof.Machine

/-- The Control Link alone changes, or it changes and the dispatcher takes a request. -/
def Dispatches (s t : State) : Prop :=
  (∃ l, t = { s with link := l }) ∨ ∃ l r, t = State.takeRequest r { s with link := l }

theorem Dispatches.onLink {f : Link → Link} {s t : State} (h : Dispatches (s.onLink f) t) : Dispatches s t := h

theorem State.onLink_dispatches (f : Link → Link) (s : State) : Dispatches s (s.onLink f) := .inl ⟨_, rfl⟩

theorem State.raise_dispatches (n : Notice) (s : State) : Dispatches s (s.raise n) := s.onLink_dispatches _

theorem Dispatches.refl (s : State) : Dispatches s s := .inl ⟨s.link, rfl⟩

theorem State.takeBody_dispatches (body : List Byte) (s : State) : Dispatches s (s.takeBody body) := by
  unfold State.takeBody
  split
  · exact s.onLink_dispatches _
  · exact s.onLink_dispatches _
  · exact .inr ⟨s.link, _, rfl⟩

theorem State.pump_dispatches (s : State) : Dispatches s s.pump := by
  unfold State.pump
  split
  · exact (State.takeBody_dispatches _ _).onLink
  · exact .refl s

theorem State.offerBody_dispatches (body : List Byte) (s : State) : Dispatches s (s.offerBody body) := by
  unfold State.offerBody
  split
  · exact (State.pump_dispatches _).onLink
  · exact (State.raise_dispatches _ _).onLink

theorem State.arrive_dispatches (r : Request) (s : State) : Dispatches s (s.arrive r) := by
  unfold State.arrive
  split
  · exact .inr ⟨s.link, r, rfl⟩
  · exact s.offerBody_dispatches _

theorem State.arriveBody_dispatches (kind : Byte) (payload : List Byte) (s : State) :
    Dispatches s (s.arriveBody kind payload) := by
  unfold State.arriveBody
  split
  · exact s.takeBody_dispatches _
  · exact s.offerBody_dispatches _

theorem State.framingError_dispatches (s : State) : Dispatches s s.framingError := (State.raise_dispatches _ _).onLink

theorem State.takeInterByte_dispatches (s : State) : Dispatches s s.takeInterByte := by
  unfold State.takeInterByte
  split
  · exact s.framingError_dispatches
  · exact .refl s

theorem State.brokenByte_dispatches (s : State) : Dispatches s s.brokenByte := by
  unfold State.brokenByte
  split
  · exact .refl s
  · exact s.framingError_dispatches

theorem State.frameComplete_dispatches (len : Nat) (body : List Byte) (chk : Byte) (s : State) :
    Dispatches s (s.frameComplete len body chk) := by
  unfold State.frameComplete
  extract_lets t
  refine Dispatches.onLink (t := _) (s := s) (f := fun l => { l with receiver := .hunt, interByte := none }) ?_
  split
  · exact t.offerBody_dispatches body
  · exact (State.raise_dispatches _ _).onLink

theorem State.takeByte_dispatches (b : Byte) (s : State) : Dispatches s (s.takeByte b) := by
  unfold State.takeByte
  split
  · split
    · exact s.onLink_dispatches _
    · exact .refl s
  · split
    · exact s.framingError_dispatches
    · exact s.onLink_dispatches _
  · exact s.onLink_dispatches _
  · exact s.frameComplete_dispatches _ _ _

/-- The last byte of a reply other than that to RESET PART frees the dispatcher (R180, R193). -/
theorem State.replySent_dispatches (pins : Pins) (s : State) :
    s.replySent pins = s.partReset pins ∨ Dispatches s (s.replySent pins) := by
  unfold State.replySent
  split
  · exact .inl rfl
  · exact .inr (State.pump_dispatches _).onLink
  · exact .inr (.refl s)

end Sys2Proof.Machine
end

section
/-! PROOFS. Every request, every event and so every step keeps the Practice Player's invariant. -/

namespace Sys2Proof.Machine

/-! ### The requests of the player (R152, R154, R160, R169 to R171, R173) -/

theorem runOk_iff (least most size first count : Nat) :
    runOk least most size first count = true
      ↔ least ≤ count ∧ count ≤ most ∧ first < size ∧ first + count ≤ size :=
  decide_eq_true_iff

/-- A run whose count is that of its records lies within the store (R152). -/
theorem serveWritePassage_keepsPlayer (start : Half) (count : Byte) (records : List Record) (s : State)
    (length : records.length = count.toNat) : KeepsPlayer s (serveWritePassage start count records s).after := by
  unfold serveWritePassage
  split
  · rename_i run
    obtain ⟨-, -, -, within⟩ := (runOk_iff ..).1 run
    split
    · exact id
    · rintro ⟨passage, rest⟩
      exact ⟨passageWriteRun_wf _ _ _ (length ▸ within) passage, rest⟩
  · exact id

/-- A segment that passes its check lies within the store (R154). -/
theorem segmentOf_range (f : SegFields) (seg : Segment) (h : segmentOf f = some seg) : seg.start + seg.count ≤ 8192 := by
  unfold segmentOf at h
  split at h
  · extract_lets start count at h
    split at h <;> cases h
    rename_i check
    exact check.2.2.1
  · cases h

theorem serveWriteSegment_keepsPlayer (number : Byte) (entry : SegFields) (s : State) :
    KeepsPlayer s (serveWriteSegment number entry s).after := by
  unfold serveWriteSegment
  split
  · rename_i n seg _ written
    rintro ⟨passage, tempo, waits, silent, held, expected, copy, segments⟩
    refine ⟨passage, tempo, waits, silent, held, expected, copy, fun i => ?_⟩
    have range := segmentOf_range entry seg written
    by_cases same : n.val = i.val
    · simpa [Served.ok, Served.after, Vector.getElem_set, same] using range
    · simpa [Served.ok, Served.after, Vector.getElem_set, same] using segments i
  · exact id

theorem servePlayStart_keepsPlayer (segment : Byte) (s : State) : KeepsPlayer s (servePlayStart segment s).after := by
  unfold servePlayStart
  split
  · exact id
  · split
    · exact s.startPlay_keepsPlayer _
    · exact id

theorem servePlayPause_keepsPlayer (s : State) : KeepsPlayer s (servePlayPause s).after := by
  unfold servePlayPause
  split
  · rename_i running
    intro ok
    have ⟨passage, _, _, _, held, _, ranges⟩ := ok.consistent
    exact Player.ok_stopped passage ranges (.inr rfl) rfl
      (ok.consistent.expected_nil (running ▸ nofun) (running ▸ nofun)) held
  · rename_i waiting
    intro ok
    have ⟨passage, _, waits, _, held, expected, ranges⟩ := ok.consistent
    exact Player.ok_waits passage ranges (.inr rfl) rfl (waits.2 (.inl waiting)) held expected
  · exact id

theorem servePlayResume_keepsPlayer (s : State) : KeepsPlayer s (servePlayResume s).after := by
  unfold servePlayResume
  split
  · rename_i paused
    intro ok
    have ⟨passage, _, _, _, held, _, ranges⟩ := ok.consistent
    exact State.reloadTempo_ok _ passage ranges rfl
      (ok.consistent.expected_nil (paused ▸ nofun) (paused ▸ nofun)) held
  · rename_i paused
    intro ok
    have ⟨passage, _, waits, _, held, expected, ranges⟩ := ok.consistent
    exact Player.ok_waits passage ranges (.inl rfl) (ok.consistent.tempo_none (paused ▸ nofun)) (waits.2 (.inr paused)) held
      expected
  · exact id

theorem servePlayStop_keepsPlayer (s : State) : KeepsPlayer s (servePlayStop s).after := by
  unfold servePlayStop
  split
  case h_5 => exact id
  all_goals exact s.playbackClearing_silent .idle (.inl rfl)

/-- Of a halted player nothing but its state is left to clear (R166, R173). -/
theorem servePlayReset_keepsPlayer (s : State) : KeepsPlayer s (servePlayReset s).after := by
  have reset (halted : s.player.state = .haltedBadEvent ∨ s.player.state = .haltedChainEmpty) :
      KeepsPlayer s (s.onPlayer fun p => { p with state := .idle }) := by
    intro ok
    have ⟨passage, _, _, silent, held, _, ranges⟩ := ok.consistent
    have other (st : PlayerState) (moves : st ≠ .haltedBadEvent ∧ st ≠ .haltedChainEmpty) : s.player.state ≠ st :=
      fun same => halted.elim (fun is => moves.1 (same.symm.trans is)) fun is => moves.2 (same.symm.trans is)
    exact Player.ok_stopped passage ranges (.inl ⟨silent (.inr halted), .inl rfl⟩)
      (ok.consistent.tempo_none (other _ ⟨nofun, nofun⟩))
      (ok.consistent.expected_nil (other _ ⟨nofun, nofun⟩) (other _ ⟨nofun, nofun⟩)) held
  unfold servePlayReset
  split
  · rename_i halted
    exact reset (.inl halted)
  · rename_i halted
    exact reset (.inr halted)
  · exact id
  · exact id

/-! ### Requests that leave the player alone -/

theorem serveSetRailMode_player (code : Byte) (s : State) : (serveSetRailMode code s).after.player = s.player := by
  unfold serveSetRailMode
  split
  · rfl
  · split
    case h_2 | h_4 => exact (State.quietGrant_rail _).player
    case h_5 => split <;> rfl
    all_goals rfl

theorem serveClearRailFault_player (s : State) : (serveClearRailFault s).after.player = s.player := by
  unfold serveClearRailFault
  split
  · split
    · rfl
    · exact s.enterHoming_rail.player
  · rfl

theorem State.startOperation_player (op : Operation) (s : State) : (s.startOperation op).player = s.player := by
  cases op with
  | startup => exact (State.beginLoad_wave _).player
  | loadZones => exact (State.beginLoad_wave _).player
  | learnRest => rfl
  | railCalibrate => exact (State.quietGrant_rail _).player

theorem serveStartOperation_player (code : Byte) (s : State) : (serveStartOperation code s).after.player = s.player := by
  unfold serveStartOperation
  split
  · rfl
  · split
    · rfl
    · split
      · rfl
      · exact s.startOperation_player _

theorem State.abortCalibration_player (s : State) : s.abortCalibration.player = s.player := by
  unfold State.abortCalibration
  split
  case h_3 => exact (State.quietGrant_rail _).player
  all_goals rfl

theorem State.abortOperation_player (op : Operation) (s : State) : (s.abortOperation op).player = s.player := by
  cases op with
  | loadZones => exact (State.endOperation_frame _ _ _).player.trans s.abortLoad_wave.player
  | learnRest => exact (State.endOperation_frame _ _ _).player
  | railCalibrate => exact (State.endOperation_frame _ _ _).player.trans s.abortCalibration_player
  | startup =>
    refine (State.endOperation_frame _ _ _).player.trans ?_
    split
    · exact s.abortLoad_wave.player
    · rfl

theorem serveAbortOperation_player (s : State) : (serveAbortOperation s).after.player = s.player := by
  unfold serveAbortOperation
  split
  · exact s.abortOperation_player _
  · rfl

theorem serveSetRegulation_player (first count : Byte) (entries : List RegFields) (s : State) :
    (serveSetRegulation first count entries s).after.player = s.player := by
  unfold serveSetRegulation
  split
  · split
    · simp only [Served.ok, Served.after, State.onTouch_player]
    · rfl
  · rfl

theorem serveGetKeyCounters_player (first count : Byte) (s : State) :
    (serveGetKeyCounters first count s).after.player = s.player := by
  unfold serveGetKeyCounters
  split
  · simp only [Served.give, Served.after, State.onScanner_player]
  · rfl

theorem serveRecordStart_player (mask : Byte) (s : State) : (serveRecordStart mask s).after.player = s.player := by
  unfold serveRecordStart
  split
  · rfl
  · split
    · rfl
    · simp only [Served.ok, Served.after, State.offerOpening_eq]
      exact (State.offers_pedalWork _ _ _).player

/-- Every request that passes its length check keeps the player's invariant: seven of the player, and those that leave alone
what it speaks of. -/
theorem serveRequest_keepsPlayer (r : Request) (s : State) (length : r.lengthOk = true) :
    KeepsPlayer s (serveRequest r s).after := by
  cases r with
  | writePassage start count records => exact serveWritePassage_keepsPlayer start count records s (of_decide_eq_true length)
  | writeSegment number entry => exact serveWriteSegment_keepsPlayer number entry s
  | playStart segment => exact servePlayStart_keepsPlayer segment s
  | playPause => exact servePlayPause_keepsPlayer s
  | playResume => exact servePlayResume_keepsPlayer s
  | playStop => exact servePlayStop_keepsPlayer s
  | playReset => exact servePlayReset_keepsPlayer s
  | setRailMode code => exact .of_eq (serveSetRailMode_player code s)
  | clearRailFault => exact .of_eq (serveClearRailFault_player s)
  | startOperation code => exact .of_eq (serveStartOperation_player code s)
  | abortOperation => exact .of_eq (serveAbortOperation_player s)
  | setRegulation first count entries => exact .of_eq (serveSetRegulation_player first count entries s)
  | getKeyCounters first count => exact .of_eq (serveGetKeyCounters_player first count s)
  | recordStart mask => exact .of_eq (serveRecordStart_player mask s)
  | readWaveStore address count => exact .of_eq (serveReadWaveStore_wave address count s).player
  | _ =>
    simp only [serveRequest, serveGetIdentity, serveGetStatus, serveResetPart, serveReadNotices, serveClearNotices,
      serveSetNoticeMask, serveGetOperationResult, serveGetKeyState, serveGetRegulation, serveSetTouchCurve,
      serveGetTouchCurve, serveGetPedalState, serveSetPedalMap, serveSetRailDrive, serveGetRailState, serveSetSoundOptions,
      serveGetVoiceState, serveGetZone, serveSetOutputGain, serveSetRoute, serveGetOutput, serveRecordStop,
      serveRecordFlush, serveReadRecordBlock, serveReadPassage, serveReadSegment, serveSetSplit, serveSetMasterTempo,
      serveGetPlayStatus]
    repeat' split
    all_goals exact id

theorem State.takeRequest_keepsPlayer (r : Request) (s : State) : KeepsPlayer s (s.takeRequest r) := by
  unfold State.takeRequest
  split
  · rename_i length
    have same : (State.conclude r.kind (endsInReset r) (serveRequest r s)).player = (serveRequest r s).after.player := by
      cases serveRequest r s <;> rfl
    exact (serveRequest_keepsPlayer r s length).trans (.of_eq same)
  · exact id

theorem Dispatches.keepsPlayer {s t : State} (h : Dispatches s t) : KeepsPlayer s t := by
  obtain ⟨l, rfl⟩ | ⟨l, r, rfl⟩ := h
  · exact id
  · exact fun ok => State.takeRequest_keepsPlayer r _ ok

/-! ### Part reset (R150, R193) -/

theorem State.partReset_player (pins : Pins) (s : State) : (s.partReset pins).player = Player.reset :=
  (State.enterHoming_rail _).player

theorem State.partReset_playerOk (pins : Pins) (s : State) : (s.partReset pins).player.ok :=
  s.partReset_player pins ▸ Player.reset_ok

theorem State.replySent_keepsPlayer (pins : Pins) (s : State) : KeepsPlayer s (s.replySent pins) := by
  obtain reset | dispatches := s.replySent_dispatches pins
  · rw [reset]
    exact fun _ => s.partReset_playerOk pins
  · exact dispatches.keepsPlayer

/-! ### The action (R16, R168) -/

/-- Of the action's events a STRIKE alone comes to the player (R168). -/
theorem State.emitLive_keepsPlayer (n : NoteRequest) (s : State) : KeepsPlayer s (s.emitLive n) := by
  have offered (e : RecorderEvent) : KeepsPlayer s
      ((s.onVoice fun v => { v with liveRequests := v.liveRequests ++ [n] }).offer .live e) :=
    .of_eq (State.offer_player .live e (s.onVoice _))
  cases n with
  | strike k l => exact (offered _).trans (State.matchStrike_keepsPlayer k _)
  | release k l => exact offered _

theorem State.takeCrossing_keepsPlayer (key : Key) (g : Gate) (s : State) : KeepsPlayer s (s.takeCrossing key g) := by
  unfold State.takeCrossing
  split
  · simp only [State.crossing]
    have emitted (c : Scanner → Scanner) (l : List NoteRequest) :
        KeepsPlayer s (l.foldl (fun t n => t.emitLive n) (s.onScanner c)) :=
      KeepsPlayer.trans (.of_eq (s.onScanner_player c))
        (State.foldl_keepsPlayer _ (fun t n => t.emitLive_keepsPlayer n) l _)
    split
    · exact (emitted _ _).trans (.of_eq (State.g2Report_rail _).player)
    · exact emitted _ _
  · exact id

theorem State.takeStale_player (key : Key) (s : State) : (s.takeStale key).player = s.player := s.onScanner_player _

theorem State.takeGuard_player (key : Key) (s : State) : (s.takeGuard key).player = s.player := s.onScanner_player _

theorem State.takeKeyLeftovers_keepsPlayer (s : State) (key : Key) : KeepsPlayer s (s.takeKeyLeftovers key) :=
  ((((s.takeCrossing_keepsPlayer key .g2).trans (State.takeCrossing_keepsPlayer key .g1 _)).trans
    (State.takeCrossing_keepsPlayer key .g2 _)).trans (.of_eq (State.takeStale_player key _))).trans
    (.of_eq (State.takeGuard_player key _))

theorem State.takeSettle_player (s : State) : s.takeSettle.player = s.player := by
  unfold State.takeSettle State.settleExpires
  split
  · extract_lets t
    split
    · exact (State.quietGrant_rail _).player
    · rfl
  · rfl

/-! ### The clocks and the scan -/

theorem State.takeTickLeftovers_keepsPlayer (s : State) : KeepsPlayer s s.takeTickLeftovers :=
  (((State.foldl_keepsPlayer _ State.takeKeyLeftovers_keepsPlayer allKeys s).trans
    (.of_eq (State.takeSettle_player _))).trans (State.takePlaybackTick_keepsPlayer _)).trans
    (State.takeInterByte_dispatches _).keepsPlayer

/-- The tempo counter runs down, and one at 0 stays due (R158). -/
theorem State.tick_keepsPlayer (g1 g2 : BitVec 88) (s : State) : KeepsPlayer s (s.tick g1 g2) := by
  have ticked : (s.tick g1 g2).player = { s.player with tempo := runDown s.player.tempo } := by
    simp only [State.tick, State.onLink, State.onPlayer, State.onScanner]
  unfold KeepsPlayer
  rw [ticked]
  rintro ⟨passage, tempo, rest⟩
  exact ⟨passage, (by simpa only [runDown, Option.isSome_map] using tempo), rest⟩

theorem State.sostenutoTurns_player (s : State) : s.sostenutoTurns.player = s.player := by
  unfold State.sostenutoTurns
  extract_lets t
  split <;> rfl

theorem State.takeSostenuto_player (s : State) : s.takeSostenuto.player = s.player := by
  unfold State.takeSostenuto
  split
  · extract_lets t
    split
    · exact ((State.offerUnaCorda_pedalWork _).player.trans t.offerSostenuto_pedalWork.player).trans s.sostenutoTurns_player
    · exact s.sostenutoTurns_player
  · rfl

theorem State.confirmSostenuto_player (sample : Sample) (s : State) : (s.confirmSostenuto sample).player = s.player := by
  unfold State.confirmSostenuto
  split
  · exact s.takeSostenuto_player
  · split
    · exact s.sostenutoTurns_player
    · rfl

theorem State.takeLearning_player (s : State) : s.takeLearning.player = s.player := by
  unfold State.takeLearning
  split
  · rename_i l _
    split
    · by_cases slot : s.link.slot = .running .startup
      · rw [s.completeLearning_startup l slot]
        exact (State.endOperation_frame _ _ (s.learned l)).player
      · rw [s.completeLearning_alone l slot]
        exact (State.endOperation_frame _ _ (s.learned l)).player
    · rfl
  · rfl

/-- A scan has no part in the player: of its events the RELEASEs alone are live ones (R168). -/
theorem State.scan_player (samples : ScanSamples) (s : State) : (s.scan samples).player = s.player := by
  have leftovers : s.takeScanLeftovers.player = s.player :=
    (((State.takeLearning_player _).trans (State.takeSwitch_rail .closed _).player).trans
      (State.takeSwitch_rail .opened _).player).trans s.takeSostenuto_player
  have scanned : (s.takeScanLeftovers.keysScanned samples).player = s.takeScanLeftovers.player := by
    rw [State.keysScanned, State.onScanner_player, State.onTouch_player]
  rw [State.scan, State.scanLearning, State.scanSwitches, State.onScanner_player, State.onRail_player,
    (State.scanSensors_pedalWork samples _).player, State.onVoice_player, scanned, leftovers]

theorem State.envelopeTick_player (s : State) : s.perfTick.envelope.player = s.player :=
  (State.envelope_wave _).player.trans s.takeMoveTimer_rail.player

/-! ### Voices and arrivals -/

theorem State.takeRequestOf_player (source : Source) (n : NoteRequest) (take : State → State) (s : State)
    (same : ∀ t, (take t).player = t.player) : (s.takeRequestOf source n take).player = s.player := by
  unfold State.takeRequestOf
  split
  · exact same (s.onVoice _)
  · rfl

theorem State.takeStrike_player (source : Source) (key : Key) (level : Byte) (s : State) :
    (s.takeStrike source key level).player = s.player := by
  obtain ⟨v, w, h⟩ := s.takeStrike_frame source key level
  rw [h]

theorem State.takeRelease_player (source : Source) (key : Key) (level : Byte) (s : State) :
    (s.takeRelease source key level).player = s.player := by
  obtain ⟨v, h⟩ := s.takeRelease_frame source key level
  rw [h]

theorem State.endLoad_player (summary : LoadSummary) (s : State) : (s.endLoad summary).player = s.player := by
  obtain ⟨frame, -⟩ := s.endLoad_ended summary
  rw [frame]

theorem State.loadTakes_player (data : List Byte) (s : State) : (s.loadTakes data).player = s.player := by
  unfold State.loadTakes
  split
  · rfl
  · split
    · unfold State.headerArrives
      extract_lets count total
      split
      · split
        · exact s.endLoad_player _
        · rfl
      · exact s.endLoad_player _
    · unfold State.entriesArrive
      extract_lets entries valid done skipped t
      split
      · exact t.endLoad_player _
      · rfl

theorem State.loadReadArrives_player (data : List Byte) (s : State) : (s.loadReadArrives data).player = s.player := by
  unfold State.loadReadArrives
  split
  · split
    · refine (State.freePort_wave _).player.trans ?_
      split
      · rfl
      · exact s.loadTakes_player data
    · rfl
  · rfl

theorem State.diagnosticArrives_player (data : List Byte) (s : State) : (s.diagnosticArrives data).player = s.player := by
  unfold State.diagnosticArrives
  split
  · split
    · extract_lets t
      have same : t.player = s.player := s.freePort_wave.player
      split <;> exact same
    · rfl
  · rfl

/-! ### The step -/

theorem unlessReset_keepsPlayer (f : State → State) (s t : State) (keeps : KeepsPlayer s (f s))
    (h : unlessReset f s = .next t) : KeepsPlayer s t := by
  unfold unlessReset at h
  cases h
  split
  · exact id
  · exact keeps

/-- Every command keeps the player's invariant. -/
theorem exec_keepsPlayer (c : Instr) (s t : State) (h : exec c s = .next t) : KeepsPlayer s t := by
  cases c with
  | resetNLow => cases h; exact fun _ => Player.reset_ok
  | resetNHigh pins =>
    cases h
    split
    · exact fun _ => s.partReset_playerOk pins
    · exact id
  | receiveByte byte stopHigh =>
    refine unlessReset_keepsPlayer _ s t ?_ h
    split
    · exact (s.takeByte_dispatches byte).keepsPlayer
    · exact s.brokenByte_dispatches.keepsPlayer
  | interByteTimerExpiry => exact unlessReset_keepsPlayer _ s t s.takeInterByte_dispatches.keepsPlayer h
  | replySent pins => exact unlessReset_keepsPlayer _ s t (s.replySent_keepsPlayer pins) h
  | unknownKind kind payload => exact unlessReset_keepsPlayer _ s t (s.arriveBody_dispatches kind payload).keepsPlayer h
  | gateSample g1 g2 =>
    exact unlessReset_keepsPlayer (fun s => s.takeTickLeftovers.tick g1 g2) s t
      (s.takeTickLeftovers_keepsPlayer.trans (State.tick_keepsPlayer g1 g2 _)) h
  | gateCrossing key gate => exact unlessReset_keepsPlayer _ s t (s.takeCrossing_keepsPlayer key gate) h
  | staleMarkSet key => exact unlessReset_keepsPlayer _ s t (.of_eq (s.takeStale_player key)) h
  | guardMarkSet key => exact unlessReset_keepsPlayer _ s t (.of_eq (s.takeGuard_player key)) h
  | settleTimerExpiry => exact unlessReset_keepsPlayer _ s t (.of_eq s.takeSettle_player) h
  | scan samples => exact unlessReset_keepsPlayer _ s t (.of_eq (s.scan_player samples)) h
  | learnRestComplete => exact unlessReset_keepsPlayer _ s t (.of_eq s.takeLearning_player) h
  | sostenutoConfirmed sample => exact unlessReset_keepsPlayer _ s t (.of_eq (s.confirmSostenuto_player sample)) h
  | endSwitchConfirmed switch => exact unlessReset_keepsPlayer _ s t (.of_eq (s.takeSwitch_rail switch).player) h
  | railGuardAsserted =>
    cases h
    split
    · exact id
    · exact .of_eq (State.railFaults_rail _ _).player
  | railGuardReleased => cases h; exact id
  | moveTimerExpiry => exact unlessReset_keepsPlayer _ s t (.of_eq s.takeMoveTimer_rail.player) h
  | voiceStrike source key level =>
    exact unlessReset_keepsPlayer _ s t
      (.of_eq (s.takeRequestOf_player _ _ _ (State.takeStrike_player source key level))) h
  | voiceRelease source key level =>
    exact unlessReset_keepsPlayer (State.takeRequestOf source (.release key level) (State.takeRelease source key level)) s t
      (.of_eq (s.takeRequestOf_player _ _ _ (State.takeRelease_player source key level))) h
  | envelopeTick => exact unlessReset_keepsPlayer (fun s => s.perfTick.envelope) s t (.of_eq s.envelopeTick_player) h
  | audioFrame =>
    cases h
    split
    · exact id
    · obtain ⟨a, v, w, e⟩ := s.audioFrame_frame
      exact .of_eq (by rw [e])
  | fetchArrival data => exact unlessReset_keepsPlayer _ s t (.of_eq (s.fetchArrives_wave data).player) h
  | loadReadArrival data => exact unlessReset_keepsPlayer _ s t (.of_eq (s.loadReadArrives_player data)) h
  | diagnosticReadArrival data => exact unlessReset_keepsPlayer _ s t (.of_eq (s.diagnosticArrives_player data)) h
  | playbackTick => exact unlessReset_keepsPlayer _ s t s.takePlaybackTick_keepsPlayer h
  | _ => exact unlessReset_keepsPlayer _ s t (s.arrive_dispatches _).keepsPlayer h

/-- Settles O59: every command keeps the invariant, and a step takes one command or idles. -/
theorem everyStepKeepsThePlayer : Obligations.EveryStepKeepsThePlayer := by
  intro s t ok h
  unfold step at h
  split at h
  · cases h
    exact ok
  · exact exec_keepsPlayer _ _ t h ok

end Sys2Proof.Machine
end

section
/-! PROOFS. PLAY PAUSE, PLAY RESUME and PLAY RESET (R169, R170, R173), by the player's state. -/

namespace Sys2Proof.Machine

section
variable {s : State}

/-! ### What each request answers, by the state -/

theorem servePlayPause_running (running : s.player.state = .running) : servePlayPause s
    = .ok (s.onPlayer fun p => { p with state := .pausedRunning, tempo := none }) := by
  rw [servePlayPause, running]

theorem servePlayPause_waiting (waiting : s.player.state = .waiting) : servePlayPause s
    = .ok (s.onPlayer fun p => { p with state := .pausedWaiting, tempo := none }) := by
  rw [servePlayPause, waiting]

theorem servePlayPause_refuses (notRunning : s.player.state ≠ .running) (notWaiting : s.player.state ≠ .waiting) :
    servePlayPause s = .refuse .wrongState s := by
  unfold servePlayPause
  split
  · exact absurd ‹_› notRunning
  · exact absurd ‹_› notWaiting
  · rfl

theorem servePlayResume_running (paused : s.player.state = .pausedRunning) : servePlayResume s
    = .ok (s.onPlayer fun p => { p with state := .running }).reloadTempo := by
  rw [servePlayResume, paused]

theorem servePlayResume_waiting (paused : s.player.state = .pausedWaiting) : servePlayResume s
    = .ok (s.onPlayer fun p => { p with state := .waiting }) := by
  rw [servePlayResume, paused]

theorem servePlayResume_refuses (notRunning : s.player.state ≠ .pausedRunning)
    (notWaiting : s.player.state ≠ .pausedWaiting) :
    servePlayResume s = .refuse .wrongState s := by
  unfold servePlayResume
  split
  · exact absurd ‹_› notRunning
  · exact absurd ‹_› notWaiting
  · rfl

theorem servePlayReset_halted (halted : s.player.state = .haltedBadEvent ∨ s.player.state = .haltedChainEmpty) :
    servePlayReset s = .ok (s.onPlayer fun p => { p with state := .idle }) := by
  obtain halted | halted := halted <;> rw [servePlayReset, halted]

theorem servePlayReset_idle (idle : s.player.state = .idle) : servePlayReset s = .ok s := by
  rw [servePlayReset, idle]

theorem servePlayReset_refuses (plays : s.player.state = .running ∨ s.player.state = .waiting
    ∨ s.player.state = .pausedRunning ∨ s.player.state = .pausedWaiting) : servePlayReset s = .refuse .wrongState s := by
  obtain plays | plays | plays | plays := plays <;> rw [servePlayReset, plays]

/-! ### The commands -/

theorem exec_playPause (taking : s.taking) : exec .playPause s = .next (State.conclude 0x57#8 false (servePlayPause s)) :=
  unlessReset_arrive_taking .playPause s taking rfl

theorem exec_playResume (taking : s.taking) : exec .playResume s = .next (State.conclude 0x58#8 false (servePlayResume s)) :=
  unlessReset_arrive_taking .playResume s taking rfl

theorem exec_playReset (taking : s.taking) : exec .playReset s = .next (State.conclude 0x5A#8 false (servePlayReset s)) :=
  unlessReset_arrive_taking .playReset s taking rfl

end

/-- Settles O50: each request is served at once, by the player's state, and a part reset gives the player's reset values. -/
theorem pauseResumeAndResetFollowTheState : Obligations.PauseResumeAndResetFollowTheState := by
  intro s taking st next
  refine ⟨fun running => ?_, fun waiting => ?_, fun notRunning notWaiting => ?_, fun n seg paused copy => ?_,
    fun paused => ?_, fun paused => ?_, fun notRunning notWaiting => ?_, fun halted => ?_, fun idle => ?_, fun plays => ?_,
    fun pins => ⟨_, rfl, State.partReset_player pins _⟩⟩
  · rw [exec_playPause taking, servePlayPause_running running]
    rfl
  · rw [exec_playPause taking, servePlayPause_waiting waiting]
    rfl
  · rw [exec_playPause taking, servePlayPause_refuses notRunning notWaiting]
    rfl
  · have reloads := (s.onPlayer fun p => { p with state := .running }).reloadTempo_copy n seg copy
    rw [exec_playResume taking, servePlayResume_running paused, reloads]
    rfl
  · obtain ⟨period, reloads⟩ := (s.onPlayer fun p => { p with state := .running }).reloadTempo_player
    refine ⟨_, period, exec_playResume taking, ?_⟩
    rw [servePlayResume_running paused]
    exact reloads
  · rw [exec_playResume taking, servePlayResume_waiting paused]
    rfl
  · rw [exec_playResume taking, servePlayResume_refuses notRunning notWaiting]
    rfl
  · rw [exec_playReset taking, servePlayReset_halted halted]
    rfl
  · rw [exec_playReset taking, servePlayReset_idle idle]
    rfl
  · rw [exec_playReset taking, servePlayReset_refuses plays]
    rfl

end Sys2Proof.Machine
end

section
/-! PROOFS. What is written to the passage store (R152, R153) and to a segment entry (R154, R155) is what is read back. -/

namespace Sys2Proof.Machine

/-! ### The passage store (R152) -/

/-- A read after a run of records written: the run's records in its slots, and every other slot as before. -/
theorem passageAt_writeRun (start : Nat) (records : List Record) (store : List (Nat × Record))
    (rising : passageRising 0 store = true) (slot : Nat) : passageAt (passageWriteRun start records store) slot
      = if start ≤ slot ∧ slot < start + records.length then records.getD (slot - start) nopRecord
        else passageAt store slot := by
  induction records generalizing start store with
  | nil =>
    rw [if_neg (by rw [List.length_nil]; omega)]
    rfl
  | cons r rest ih =>
    rw [passageWriteRun, ih _ _ (passageWrite_rising start r store 0 (Nat.zero_le _) rising),
      passageAt_write start r store 0 rising, List.length_cons]
    by_cases first : slot = start
    · rw [if_neg (by omega), if_pos first, if_pos (by omega), first, Nat.sub_self]
      rfl
    · by_cases later : start + 1 ≤ slot ∧ slot < start + 1 + rest.length
      · rw [if_pos later, if_pos (by omega), show slot - start = slot - (start + 1) + 1 by omega]
        rfl
      · rw [if_neg later, if_neg first, if_neg (by omega)]

theorem exec_writePassage (start : Half) (count : Byte) (records : List Record) (s : State) (taking : s.taking)
    (length : records.length = count.toNat) : exec (.writePassage start count records) s
      = .next (State.conclude 0x50#8 false (serveWritePassage start count records s)) :=
  unlessReset_arrive_taking (.writePassage start count records) s taking (decide_eq_true length)

theorem PlayerState.isPlaying_iff (st : PlayerState) : st.isPlaying = true ↔ st = .running ∨ st = .waiting := by
  cases st <;> decide

/-! ### A segment entry (R154) -/

theorem handsOf_eq_some (code : Byte) (h : Hands) : handsOf code = some h ↔ code.toNat = h.code := by
  unfold handsOf
  split
  case h_5 => cases h <;> simp [Hands.code] <;> omega
  all_goals cases h <;> simp [Hands.code, *]

theorem Hands.exists_code (n : Nat) : (∃ h : Hands, n = h.code) ↔ n ≤ 3 := by
  constructor
  · rintro ⟨h, rfl⟩
    cases h <;> decide
  · intro known
    interval_cases n
    exacts [⟨.both, rfl⟩, ⟨.left, rfl⟩, ⟨.right, rfl⟩, ⟨.none, rfl⟩]

theorem nextOf_eq_some (code : Byte) (next : Option (Fin 32)) : nextOf code = some next ↔ code.toNat = nextCode next := by
  have ends : code = 255 ↔ code.toNat = 255 := BitVec.toNat_inj.symm
  unfold nextOf
  split
  · rename_i known
    cases next with
    | none => simp only [nextCode, Option.some.injEq, reduceCtorEq, false_iff]; omega
    | some n => simp only [nextCode, Option.some.injEq, Fin.ext_iff]
  · rename_i unknown
    simp only [ends]
    cases next with
    | none => simp [nextCode]
    | some n =>
      have := n.2
      simp only [nextCode, Option.ite_none_right_eq_some, Option.some.injEq, reduceCtorEq, and_false, false_iff]
      omega

theorem nextCode_exists (n : Nat) : (∃ next, n = nextCode next) ↔ n ≤ 31 ∨ n = 255 := by
  constructor
  · rintro ⟨_ | m, rfl⟩
    · exact .inr rfl
    · exact .inl (Nat.le_of_lt_succ m.2)
  · rintro (segment | rfl)
    · exact ⟨some ⟨n, Nat.lt_succ_of_le segment⟩, rfl⟩
    · exact ⟨none, rfl⟩

/-- The ranges of R154, field by field. -/
def SegmentInRange (f : SegFields) : Prop :=
  f.start.toNat ≤ 8191 ∧ f.start.toNat + f.count.toNat ≤ 8192 ∧ f.repeats.toNat ≤ 16 ∧ 25 ≤ f.tempo.toNat
    ∧ f.tempo.toNat ≤ 200 ∧ f.hands.toNat ≤ 3 ∧ f.wait.toNat ≤ 1 ∧ (f.next.toNat ≤ 31 ∨ f.next.toNat = 255)

/-- Fields in range are accepted, as the entry that has them (R154). -/
theorem segmentOf_accepts {f : SegFields} (good : SegmentInRange f) : ∃ seg, segmentOf f = some seg ∧ seg.fields = f := by
  obtain ⟨start, within, repeats, slow, fast, hands, wait, next⟩ := good
  obtain ⟨h, hands⟩ := (Hands.exists_code _).2 hands
  obtain ⟨n, next⟩ := (nextCode_exists _).2 next
  refine ⟨⟨f.start.toNat, f.count.toNat, f.repeats.toNat, f.tempo.toNat, h, decide (f.wait = 1), n⟩, ?_, ?_⟩
  · rw [segmentOf, (handsOf_eq_some ..).2 hands, (nextOf_eq_some ..).2 next, onOffOf_eq, if_pos wait]
    exact if_pos ⟨start, by omega, within, repeats, slow, fast⟩
  · have on : (if decide (f.wait = 1) then 1 else 0) = f.wait := by
      by_cases one : f.wait = 1
      · simp [one]
      · have zero : f.wait = 0 := by bv_omega
        simp [zero]
    simp only [Segment.fields, ← hands, ← next, on, BitVec.ofNat_toNat, BitVec.setWidth_eq]

/-- Fields out of range are refused (R154). -/
theorem segmentOf_refuses {f : SegFields} (bad : ¬SegmentInRange f) : segmentOf f = none := by
  unfold segmentOf
  split
  · rename_i h on n hands wait next
    refine if_neg fun check => bad ?_
    obtain ⟨start, -, within, repeats, slow, fast⟩ := check
    refine ⟨start, within, repeats, slow, fast, (Hands.exists_code _).1 ⟨h, (handsOf_eq_some ..).1 hands⟩, ?_,
      (nextCode_exists _).1 ⟨n, (nextOf_eq_some ..).1 next⟩⟩
    by_contra above
    rw [onOffOf_eq, if_neg above] at wait
    cases wait
  · rfl

/-! ### The requests -/

section
variable (s : State) (taking : s.taking)
include taking

theorem exec_writeSegment (number : Byte) (f : SegFields) : exec (.writeSegment number f) s
    = .next (State.conclude 0x52#8 false (serveWriteSegment number f s)) :=
  unlessReset_arrive_taking (.writeSegment number f) s taking rfl

theorem exec_readSegment (number : Byte) : exec (.readSegment number) s
    = .next (State.conclude 0x53#8 false (serveReadSegment number s)) :=
  unlessReset_arrive_taking (.readSegment number) s taking rfl

theorem exec_setSplit (key : Byte) : exec (.setSplit key) s = .next (State.conclude 0x54#8 false (serveSetSplit key s)) :=
  unlessReset_arrive_taking (.setSplit key) s taking rfl

theorem exec_setMasterTempo (tempo : Byte) : exec (.setMasterTempo tempo) s
    = .next (State.conclude 0x55#8 false (serveSetMasterTempo tempo s)) :=
  unlessReset_arrive_taking (.setMasterTempo tempo) s taking rfl

end

theorem segmentNumberOf_known {number : Byte} (known : number.toNat < 32) :
    segmentNumberOf number = some ⟨number.toNat, known⟩ := dif_pos known

theorem segmentNumberOf_unknown {number : Byte} (unknown : 32 ≤ number.toNat) : segmentNumberOf number = none :=
  dif_neg (Nat.not_lt.2 unknown)

theorem serveWriteSegment_refuses (number : Byte) (f : SegFields) (s : State)
    (bad : 32 ≤ number.toNat ∨ ¬SegmentInRange f) : serveWriteSegment number f s = .refuse .badValue s := by
  unfold serveWriteSegment
  split
  · rename_i number' accepted
    obtain unknown | bad := bad
    · rw [segmentNumberOf_unknown unknown] at number'
      cases number'
    · rw [segmentOf_refuses bad] at accepted
      cases accepted
  · rfl

/-- Settles O49: the passage by the run written, a segment entry by its fields in range, the two settings by their checks. -/
theorem playerStoresReadBack : Obligations.PlayerStoresReadBack := by
  intro s taking ok
  refine ⟨fun start count records length => ?_,
    fun number f => ⟨fun bad => ?_, fun unknown => ?_, fun known => ⟨?_, fun good => ?_⟩⟩,
    fun key => ⟨fun unknown => ?_, fun known => ?_⟩, fun tempo => ?_⟩
  · have run : runOk 1 60 Config.passageSlots start.toNat count.toNat = true ↔ 1 ≤ count.toNat ∧ count.toNat ≤ 60
        ∧ start.toNat ≤ 8191 ∧ start.toNat + count.toNat ≤ 8192 :=
      (runOk_iff ..).trans (and_congr_right' (and_congr_right' (and_congr_left' Nat.lt_succ_iff)))
    have rising : passageRising 0 s.player.passage = true := (Bool.and_eq_true_iff.1 ok.consistent.passage).1
    rw [exec_writePassage start count records s taking length, serveWritePassage]
    split
    · rename_i inside
      rw [if_pos (run.2 inside)]
      refine ⟨fun plays => ?_,
        fun notRunning notWaiting => ⟨passageWriteRun start.toNat records s.player.passage, ?_, ?_⟩⟩
      · rw [if_pos (s.player.state.isPlaying_iff.2 plays)]
        rfl
      · rw [if_neg fun plays => (s.player.state.isPlaying_iff.1 plays).elim notRunning notWaiting]
        rfl
      · rw [← length]
        exact passageAt_writeRun _ _ _ rising
    · rename_i outside
      rw [if_neg (mt run.1 outside)]
      rfl
  · rw [exec_writeSegment s taking, serveWriteSegment_refuses number f s bad]
    rfl
  · rw [exec_readSegment s taking, serveReadSegment, segmentNumberOf_unknown unknown]
    rfl
  · rw [exec_readSegment s taking, serveReadSegment, segmentNumberOf_known known]
    rfl
  · obtain ⟨seg, accepted, fields⟩ := segmentOf_accepts good
    refine ⟨seg, fields, ?_⟩
    rw [exec_writeSegment s taking, serveWriteSegment, segmentNumberOf_known known, accepted]
    rfl
  · rw [exec_setSplit s taking, serveSetSplit, (keyOf_eq_none key).2 unknown]
    rfl
  · rw [exec_setSplit s taking, serveSetSplit, (keyOf_eq_some key ⟨key.toNat, known⟩).2 rfl]
    by_cases idle : s.player.state = .idle
    · rw [if_pos idle]
      simp only [if_pos idle]
      rfl
    · rw [if_neg idle]
      simp only [if_neg idle]
      rfl
  · rw [exec_setMasterTempo s taking, serveSetMasterTempo, State.conclude_checked]
    rfl

end Sys2Proof.Machine
end

section
/-! PROOFS. A load (R161): the segment it loads, at once or after a chain of empty ones, its end of play and its halt. -/

namespace Sys2Proof.Machine

/-- The player that has loaded a segment (R161). -/
def Player.loaded (n : Fin 32) (seg : Segment) (p : Player) : Player :=
  { p with
    copy := some (n, seg), skips := 0, next := seg.next, pass := 1
    repsLeft := if seg.repeats = 0 then .endless else .left seg.repeats }

/-- The player whose load has skipped a chain of empty segments (R161). -/
def Player.skipped (chain : Nat → Fin 32) (empty : Nat) (p : Player) : Player :=
  { p with
    skips := p.skips + empty
    next := if empty = 0 then p.next else p.segments[chain (empty - 1)].next }

/-- What a chain of empty segments leaves of the player whose last repetition is done (R161, R165). -/
theorem Player.skipped_eq {p : Player} {chain : Nat → Fin 32} {empty skips : Nat} {next : Option (Fin 32)}
    (count : p.skips + empty = skips) (after : (p.skipped chain empty).next = next) :
    { p.skipped chain empty with repsLeft := .left 0 } = { p with repsLeft := .left 0, skips := skips, next := next } := by
  subst count after
  rfl

section
variable (zeroBegun : Bool) (s : State)

theorem State.loadSegment_ends (fuel : Nat) (ends : s.player.next = none) :
    s.loadSegment zeroBegun (fuel + 1) = (s.playEnds, zeroBegun) := by
  rw [State.loadSegment, ends]

theorem State.loadSegment_loads (fuel : Nat) (n : Fin 32) (next : s.player.next = some n)
    (records : s.player.segments[n].count ≠ 0) : s.loadSegment zeroBegun (fuel + 1)
      = (s.onPlayer (Player.loaded n s.player.segments[n])).beginRange zeroBegun := by
  rw [State.loadSegment, next]
  exact if_neg records

variable (chain : Nat → Fin 32) (empty : Nat) (first : s.player.next = some (chain 0))
  (noRecords : ∀ i < empty, s.player.segments[chain i].count = 0)
  (linked : ∀ i, i + 1 < empty → s.player.segments[chain i].next = some (chain (i + 1)))
include first noRecords linked

/-- A load goes on after a chain that leaves the skip count below 32. -/
theorem State.loadSegment_skips (few : s.player.skips + empty ≤ 31) : ∃ fuel,
    s.loadSegment zeroBegun loadFuel = (s.onPlayer (Player.skipped chain empty)).loadSegment zeroBegun (fuel + 1) := by
  cases empty with
  | zero => exact ⟨32, rfl⟩
  | succ more =>
    refine ⟨31 - more, ?_⟩
    rw [show loadFuel = 31 - more + 1 + (more + 1) by unfold loadFuel; omega,
      s.loadSegment_chain zeroBegun _ more chain first (fun i h => noRecords i (Nat.lt_succ_of_le h))
        (fun i h => linked i (Nat.succ_lt_succ h)) (by omega)]
    exact if_neg (by omega)

/-- A load halts at the skip that brings the count to 32. -/
theorem State.loadSegment_halts (some' : empty ≠ 0) (full : s.player.skips + empty = 32) :
    s.loadSegment zeroBegun loadFuel
      = ((s.onPlayer (Player.skipped chain empty)).playerHalts .haltedChainEmpty, zeroBegun) := by
  obtain ⟨more, rfl⟩ := Nat.exists_eq_succ_of_ne_zero some'
  rw [show loadFuel = 32 - more + (more + 1) by unfold loadFuel; omega,
    s.loadSegment_chain zeroBegun _ more chain first (fun i h => noRecords i (Nat.lt_succ_of_le h))
      (fun i h => linked i (Nat.succ_lt_succ h)) (by omega)]
  exact if_pos (by omega)

end

end Sys2Proof.Machine
end

section
/-! PROOFS. The end of a range (R161, R162, R165, R166, R172): a new pass, a load, the end of play, or a halt. -/

namespace Sys2Proof.Machine

/-! ### What a run comes to after the last record of a range -/

/-- A firing run that fires a record to f goes on with a range of a player q, begun with its MARK (R162). -/
def State.BeginsRange (zeroBegun : Bool) (s f : State) (n : Fin 32) (seg : Segment) (q : Player) : Prop :=
  let time := (passageAt s.player.passage seg.start).delta.toNat + f.player.gap
  let countdown := if zeroBegun = true ∧ time = 0 then 1 else time
  s.firingRun runFuel zeroBegun = State.firingRun runFuel (zeroBegun || decide (time = 0))
    (State.offerMark (BitVec.ofNat 8 n.val) (BitVec.ofNat 8 q.pass)
      { f with player := { q with slot := seg.start, satisfied := none, countdown := countdown, gap := 0 } })

/-- A firing run that fires a record to f ends, with a notice and the playback clearing (R166, R172). -/
def State.Closes (zeroBegun : Bool) (s f : State) (notice : Notice) (st : PlayerState) (skips : Nat)
    (next : Option (Fin 32)) : Prop :=
  let u := f.player.held.foldl (fun u k => State.offer .playback (.release k 64) u) f
  let t := s.firingRun runFuel zeroBegun
  t = State.raise notice { u with player := t.player, voice := t.voice, pedals := t.pedals }
  ∧ t.player = { f.player with
      state := st, repsLeft := .left 0, skips := skips, next := next, held := [], expected := [], tempo := none
      countdown := 0, gap := 0 }
  ∧ t.voice = { f.voice with playbackRequests := f.voice.playbackRequests
      ++ (f.player.held.map fun k => NoteRequest.release k 64) }
  ∧ t.pedals.playback = ⟨0, false, 0, 0⟩ ∧ t.pedals.live = s.pedals.live

/-! ### The playback clearing, with its notice -/

/-- The playback clearing that stops, ends or halts play (R166, R171, R172), in a state whose player differs from that of f but
holds the same keys. -/
theorem State.playbackClearing_closes (st : PlayerState) (f : State) (q : Player) (held : q.held = f.player.held) :
    let u := f.player.held.foldl (fun u k => State.offer .playback (.release k 64) u) f
    let g : State := { f with player := q }
    g.playbackClearing.onPlayer (fun p => { p with state := st }) = { u with
      player := { q with state := st, held := [], expected := [], tempo := none, countdown := 0, gap := 0 }
      voice := { f.voice with playbackRequests := f.voice.playbackRequests
        ++ (f.player.held.map fun k => NoteRequest.release k 64) }
      pedals := (g.onPlayer fun p => { p with held := [] }).clearPlaybackPedals.pedals } := by
  intro u g
  obtain ⟨r, n, h⟩ := f.offers_spec .playback (f.player.held.map fun k => RecorderEvent.release k 64)
  have offered : u = { f with recorder := r, link := { f.link with pendingSet := n } } := by
    rw [← h f rfl rfl rfl, List.foldl_map]
  rw [State.playbackClearing_eq, show g.player.held = f.player.held from held, offered, h] <;> rfl

/-- A fired record leaves the live pedals (R48, R163). -/
theorem State.fireRecord_live (r : Record) (s f : State) (fires : s.fireRecord r = some f) :
    f.pedals.live = s.pedals.live := by
  have offered (e : RecorderEvent) (t : State) : (t.offer .playback e).pedals = t.pedals := t.offers_pedals .playback [e]
  have handed (n : NoteRequest) : (s.handPlayback n).pedals = s.pedals := offered _ _
  unfold State.fireRecord at fires
  split at fires
  case h_2 | h_3 =>
    split at fires
    · cases fires
    · split at fires <;> cases fires
      · rw [State.onPlayer_pedals, handed]
      · rfl
  case h_4 =>
    split at fires <;> cases fires
    all_goals
      rw [offered]
      rfl
  all_goals cases fires
  all_goals rfl

/-! ### The run after the last record -/

section
variable {zeroBegun : Bool} {s f : State}

/-- A range that begins at a range's end, in the same run (R162, R165). -/
theorem State.beginsRange_of_endRange {n : Fin 32} {seg : Segment} {q : Player}
    (ends : s.firingRun runFuel zeroBegun = State.firingRun runFuel (f.endRange zeroBegun).2 (f.endRange zeroBegun).1)
    (begins : f.endRange zeroBegun = State.beginRange zeroBegun { f with player := q }) (copy : q.copy = some (n, seg))
    (passage : q.passage = s.player.passage) (gap : q.gap = f.player.gap) : State.BeginsRange zeroBegun s f n seg q := by
  unfold State.BeginsRange
  rw [ends, begins, State.beginRange_eq zeroBegun _ n seg copy, ← passage, ← gap]
  simp only [State.onPlayer, Bool.and_eq_true, decide_eq_true_eq, and_comm]

/-- The end of play, or a halt, at a range's end (R161, R166, R172). -/
theorem State.closes_of_endRange {notice : Notice} {st : PlayerState} {skips : Nat} {next : Option (Fin 32)} {q : Player}
    {r : Record} (fires : s.fireRecord r = some f)
    (ends : s.firingRun runFuel zeroBegun = State.firingRun runFuel (f.endRange zeroBegun).2 (f.endRange zeroBegun).1)
    (stopped : st ≠ .running)
    (closes : (f.endRange zeroBegun).1
      = ((State.playbackClearing { f with player := q }).raise notice).onPlayer (fun p => { p with state := st }))
    (player : q = { f.player with repsLeft := .left 0, skips := skips, next := next }) :
    State.Closes zeroBegun s f notice st skips next := by
  subst player
  have closed := closes.trans (congrArg (State.raise notice) (State.playbackClearing_closes st f { f.player with
    repsLeft := .left 0, skips := skips, next := next } rfl))
  have run : s.firingRun runFuel zeroBegun = (f.endRange zeroBegun).1 := by
    rw [ends]
    refine State.firingRun_stops _ _ _ fun running => stopped ?_
    rw [← running.1, closed]
    rfl
  unfold State.Closes
  rw [run, closed]
  exact ⟨rfl, rfl, rfl, rfl, s.fireRecord_live r f fires⟩

/-- A due record that no wait begins with, by the segment of the working copy (R167). -/
theorem Player.waitKey_eq_none {p : Player} {n : Fin 32} {seg : Segment} (copy : p.copy = some (n, seg))
    (noWait : ∀ k : Key, ¬(seg.wait = true ∧ (passageAt p.passage p.slot).kind = 1
      ∧ (passageAt p.passage p.slot).key.toNat = k.val ∧ handsSound seg.hands p.split k = false
      ∧ ∀ through, p.satisfied = some through → through < p.slot)) : p.waitKey = none := by
  have range : p.segment = seg := by simp only [Player.segment, copy, Option.map_some, Option.getD_some]
  refine Option.eq_none_iff_forall_ne_some.2 fun k wait => noWait k ?_
  obtain ⟨waits, kind, key, muted, unexamined⟩ := (p.waitKey_eq_some k).1 wait
  rw [p.sounds_copy n seg copy k] at muted
  exact ⟨range ▸ waits, kind, key, muted, unexamined⟩

/-- At the last record of a range the run ends the range (R159, R165). -/
theorem State.run_endsRange {n : Fin 32} {seg : Segment} (ranges : s.player.rangesOk) (state : s.player.state = .running)
    (copy : s.player.copy = some (n, seg)) (due : s.player.countdown = 0) (last : s.player.slot + 1 = seg.start + seg.count)
    (noWait : s.player.waitKey = none) (fires : s.fireRecord (passageAt s.player.passage s.player.slot) = some f) :
    s.firingRun runFuel zeroBegun = State.firingRun runFuel (f.endRange zeroBegun).2 (f.endRange zeroBegun).1 := by
  have same := s.fireRecord_player _ f fires
  have slot : f.player.slot = s.player.slot := by rw [same]
  have range : f.player.segment = seg := by
    have copied : f.player.copy = s.player.copy := by rw [same]
    simp only [Player.segment, copied, copy, Option.map_some, Option.getD_some]
  rw [State.run_fires zeroBegun s f ranges state due noWait fires, slot, range, if_neg (by omega)]

/-- The last repetition done, the next segment is loaded (R165). -/
theorem State.endRange_left {m : Nat} (reps : f.player.repsLeft = .left m) (last : m ≤ 1) :
    f.endRange zeroBegun = (f.onPlayer fun p => { p with repsLeft := .left 0 }).loadSegment zeroBegun loadFuel := by
  rw [State.endRange, reps]
  exact if_neg (Nat.not_lt.2 last)

section
variable {m : Nat} (reps : f.player.repsLeft = .left m) (last : m ≤ 1) {chain : Nat → Fin 32} {empty : Nat}
  (first : f.player.next = some (chain 0)) (noRecords : ∀ i < empty, f.player.segments[chain i].count = 0)
  (linked : ∀ i, i + 1 < empty → f.player.segments[chain i].next = some (chain (i + 1)))
include reps last first noRecords linked

/-- A range's end that finds a segment with records after a chain of empty ones. -/
theorem State.endRange_loads (few : f.player.skips + empty ≤ 31) {n : Fin 32}
    (after : (f.player.skipped chain empty).next = some n) (records : f.player.segments[n].count ≠ 0) :
    f.endRange zeroBegun = State.beginRange zeroBegun { f with player := f.player.loaded n f.player.segments[n] } := by
  obtain ⟨fuel, skips⟩ := State.loadSegment_skips zeroBegun (f.onPlayer fun p => { p with repsLeft := .left 0 }) chain empty
    first noRecords linked few
  rw [State.endRange_left reps last, skips]
  exact State.loadSegment_loads zeroBegun _ fuel n after records

/-- A range's end that finds END after a chain of empty segments. -/
theorem State.endRange_ends (few : f.player.skips + empty ≤ 31) (after : (f.player.skipped chain empty).next = none) :
    (f.endRange zeroBegun).1
      = State.playEnds { f with player := { f.player.skipped chain empty with repsLeft := .left 0 } } := by
  obtain ⟨fuel, skips⟩ := State.loadSegment_skips zeroBegun (f.onPlayer fun p => { p with repsLeft := .left 0 }) chain empty
    first noRecords linked few
  rw [State.endRange_left reps last, skips, State.loadSegment_ends zeroBegun _ fuel after]
  rfl

/-- A range's end whose load comes to its 32nd skip. -/
theorem State.endRange_halts (some' : empty ≠ 0) (full : f.player.skips + empty = 32) : (f.endRange zeroBegun).1
    = State.playerHalts .haltedChainEmpty { f with player := { f.player.skipped chain empty with repsLeft := .left 0 } } := by
  rw [State.endRange_left reps last, State.loadSegment_halts zeroBegun (f.onPlayer fun p => { p with repsLeft := .left 0 })
    chain empty first noRecords linked some' full]
  rfl

end

end

/-- Settles O53: the run ends its range, which begins a new pass, or loads the segment found after the empty ones, or closes. -/
theorem rangesEndAndSegmentsLoad : Obligations.RangesEndAndSegmentsLoad := by
  intro s f zeroBegun n seg ranges state copy due last p record sounds noWait fires run time begins loads closes
  have same := s.fireRecord_player _ f fires
  have segments : f.player.segments = s.player.segments := by rw [same]
  have reps : f.player.repsLeft = s.player.repsLeft := by rw [same]
  have passage : f.player.passage = s.player.passage := by rw [same]
  have copied : f.player.copy = s.player.copy := by rw [same]
  have next : f.player.next = s.player.next := by rw [same]
  have skips : f.player.skips = s.player.skips := by rw [same]
  have pass : f.player.pass = s.player.pass := by rw [same]
  have ends : s.firingRun runFuel zeroBegun = _ :=
    State.run_endsRange ranges state copy due last (Player.waitKey_eq_none copy noWait) fires
  refine ⟨fun endless => ?_, fun m left more => ?_,
    fun m left few => ⟨fun atEnd => ?_, fun j found => ⟨fun records => ?_, ?_⟩⟩⟩
  · refine State.beginsRange_of_endRange ends ?_ (copied.trans copy) passage rfl
    rw [State.endRange, reps, endless, ← pass]
    rfl
  · refine State.beginsRange_of_endRange ends ?_ (copied.trans copy) passage rfl
    rw [State.endRange, reps, left, ← pass]
    exact if_pos more
  · have ended := State.loadSegment_ends zeroBegun (f.onPlayer fun p => { p with repsLeft := .left 0 }) 32 (next.trans atEnd)
    refine State.closes_of_endRange fires ends nofun
      (congrArg Prod.fst ((State.endRange_left (reps.trans left) few).trans ended)) ?_
    rw [← skips, ← atEnd, ← next]
  all_goals
    have loading (i : Fin 32) (loaded : f.endRange zeroBegun
        = State.beginRange zeroBegun { f with player := f.player.loaded i f.player.segments[i] }) : loads i := by
      rw [segments] at loaded
      exact State.beginsRange_of_endRange ends loaded rfl passage rfl
  · refine loading j ?_
    rw [State.endRange_left (reps.trans left) few]
    exact State.loadSegment_loads zeroBegun _ 32 j (next.trans found) (by rw [← segments] at records; exact records)
  · rintro chain more rfl noRecords linked last'
    rw [← segments] at noRecords linked
    have first : f.player.next = some (chain 0) := next.trans found
    have after : (f.player.skipped chain (more + 1)).next = last' := by
      rw [Player.skipped, if_neg (Nat.succ_ne_zero _), segments]
      rfl
    have empties : ∀ i < more + 1, f.player.segments[chain i].count = 0 := fun i h => noRecords i (Nat.le_of_lt_succ h)
    have links : ∀ i, i + 1 < more + 1 → f.player.segments[chain i].next = some (chain (i + 1)) :=
      fun i h => linked i (Nat.lt_of_succ_lt_succ h)
    have count : f.player.skips + (more + 1) = s.player.skips + more + 1 := by rw [skips, Nat.add_assoc]
    refine ⟨fun full => ?_, fun short => ⟨fun atEnd => ?_, fun i found' records => ?_⟩⟩
    · have halted := State.endRange_halts (zeroBegun := zeroBegun) (reps.trans left) few first empties links
        (Nat.succ_ne_zero _) (count.trans (congrArg Nat.succ full))
      exact State.closes_of_endRange fires ends nofun halted
        (Player.skipped_eq (count.trans (congrArg Nat.succ full)) after)
    · have ended := State.endRange_ends (zeroBegun := zeroBegun) (reps.trans left) few first empties links
        (count.trans_le short) (after.trans atEnd)
      exact State.closes_of_endRange fires ends nofun ended (Player.skipped_eq count (after.trans atEnd))
    · refine loading i (State.endRange_loads (reps.trans left) few first empties links (count.trans_le short)
        (after.trans found') ?_)
      rw [segments]
      exact records

end Sys2Proof.Machine
end

section
/-! PROOFS. PLAY START and PLAY STOP (R158, R160 to R162, R166, R171, R172). -/

namespace Sys2Proof.Machine

/-! ### The end of play and its notice (R166, R172, R183) -/

/-- The notice of an event is pending once it is set (R183). -/
theorem State.isPending_of_set {s : State} {n : Notice} (event : n ≠ .recordReady)
    (set : s.link.pendingSet.getLsbD n.code = true) : s.isPending n = true := by
  have inSet : n.code < 11 := BitVec.lt_of_getLsbD set
  have other : Notice.recordReady.bit.getLsbD n.code = false := (Notice.bit_get _ _).trans (decide_eq_false event.symm)
  rw [State.isPending, State.pendingNotices, BitVec.getLsbD_or, BitVec.getLsbD_and, BitVec.getLsbD_not, set, other,
    decide_eq_true inSet]
  rfl

theorem State.raise_set (n : Notice) (s : State) : (s.raise n).link.pendingSet.getLsbD n.code = true := by
  rw [State.raise_pendingSet, BitVec.getLsbD_or, Notice.bit_get, decide_eq_true rfl, Bool.or_true]

theorem State.replying_pending {s : State} {n : Notice} {kind : Byte} {status : Status} {payload : List Byte}
    (pending : s.isPending n = true) : (s.replying kind status payload).isPending n = true := pending

theorem State.playEnds_pending (s : State) : s.playEnds.isPending .playEnd = true :=
  State.isPending_of_set nofun (State.raise_set .playEnd s.playbackClearing)

theorem State.playerHalts_pending (halted : PlayerState) (s : State) : (s.playerHalts halted).isPending .playHalt = true :=
  State.isPending_of_set nofun (State.raise_set .playHalt s.playbackClearing)

theorem State.playEnds_player (s : State) : s.playEnds.player = { s.player with
    state := .idle, held := [], expected := [], tempo := none, countdown := 0, gap := 0 } :=
  congrArg (fun p : Player => { p with state := .idle }) s.playbackClearing_player

theorem State.playerHalts_player (halted : PlayerState) (s : State) : (s.playerHalts halted).player = { s.player with
    state := halted, held := [], expected := [], tempo := none, countdown := 0, gap := 0 } :=
  congrArg (fun p : Player => { p with state := halted }) s.playbackClearing_player

/-! ### The start (R158, R160) -/

/-- The state in which PLAY START examines its first segment: the counts at 0, and the tempo counter in its first period. -/
def State.started (first : Fin 32) (period draws : Nat) (s : State) : State :=
  { s with
    draws := draws
    player := { s.player with
      wrong := 0, skips := 0, gap := 0, expected := [], state := .running, tempo := some period, next := some first } }

/-- A first load, and the firing run after it (R160). -/
def State.loadedRun (s : State) : State :=
  State.firingRun runFuel (s.loadSegment false loadFuel).2 (s.loadSegment false loadFuel).1

/-- The player's counts and its gap are set to 0, and it runs, before its counter starts (R160). -/
def State.playReadied (s : State) : State :=
  s.onPlayer fun p => { p with wrong := 0, skips := 0, gap := 0, expected := [], state := .running }

section
variable (first : Fin 32) (s : State)

theorem State.startPlay_eq : s.startPlay first
    = (s.playReadied.reloadTempo.onPlayer fun p => { p with next := some first }).loadedRun := rfl

/-- Without a working copy the first period is a free value within R158's limits. -/
theorem State.startPlay_free (copy : s.player.copy = none) : ∃ period, 500 ≤ period ∧ period ≤ 4000
    ∧ s.startPlay first = (s.started first period (s.draws + 1)).loadedRun := by
  obtain ⟨period, least, most, reloads⟩ := s.playReadied.reloadTempo_free copy
  refine ⟨period, least, most, ?_⟩
  rw [State.startPlay_eq, reloads]
  rfl

/-- The first period is that of the copy of the play before. -/
theorem State.startPlay_copy {m : Fin 32} {old : Segment} (copy : s.player.copy = some (m, old)) : s.startPlay first
    = (s.started first (100000 / max 25 (min 200 (old.tempo * s.player.masterTempo / 100))) s.draws).loadedRun := by
  rw [State.startPlay_eq, s.playReadied.reloadTempo_copy m old copy]
  rfl

theorem State.startPlay_started : ∃ period draws, s.startPlay first = (s.started first period draws).loadedRun := by
  cases copy : s.player.copy with
  | none =>
    obtain ⟨period, -, -, starts⟩ := s.startPlay_free first copy
    exact ⟨period, _, starts⟩
  | some c => exact ⟨_, _, s.startPlay_copy first copy⟩

end

/-! ### The first load (R161, R162) -/

/-- A run whose first load ends or halts play goes no further. -/
theorem State.loadedRun_stops {s t : State} {zeroBegun : Bool} (loads : s.loadSegment false loadFuel = (t, zeroBegun))
    (stopped : t.player.state ≠ .running) : s.loadedRun = t := by
  rw [State.loadedRun, loads]
  exact State.firingRun_stops _ _ _ fun h => stopped h.1

section
variable {chain : Nat → Fin 32} {empty : Nat} {s : State} (period draws : Nat)
  (noRecords : ∀ i < empty, s.player.segments[chain i].count = 0)
  (linked : ∀ i, i + 1 < empty → s.player.segments[chain i].next = some (chain (i + 1)))
include noRecords linked

/-- The first segment with records is loaded, and its range begins with its MARK. -/
theorem State.loadedRun_begins {n : Fin 32} (few : empty ≤ 31)
    (after : (if empty = 0 then some (chain 0) else s.player.segments[chain (empty - 1)].next) = some n)
    (records : s.player.segments[n].count ≠ 0) :
    let seg := s.player.segments[n]
    let time := (passageAt s.player.passage seg.start).delta.toNat
    let begun := State.offerMark (BitVec.ofNat 8 n.val) 1 { s with
      draws := draws
      player := { s.player with
        state := .running, copy := some (n, seg), next := seg.next, slot := seg.start
        repsLeft := if seg.repeats = 0 then .endless else .left seg.repeats
        pass := 1, countdown := time, gap := 0, satisfied := none, skips := 0, wrong := 0, expected := []
        tempo := some period } }
    (s.started (chain 0) period draws).loadedRun = State.firingRun runFuel (decide (time = 0)) begun := by
  intro seg time begun
  obtain ⟨fuel, skips⟩ := State.loadSegment_skips false (s.started (chain 0) period draws) chain empty rfl noRecords linked
    ((Nat.zero_add _).trans_le few)
  have loads := State.loadSegment_loads false ((s.started (chain 0) period draws).onPlayer (Player.skipped chain empty)) fuel n
    after records
  rw [State.loadedRun, skips, loads, State.beginRange_eq false _ n seg rfl]
  simp only [Bool.and_false, Bool.false_eq_true, if_false, Bool.false_or]
  rfl

/-- A chain of empty segments that ends at END ends play. -/
theorem State.loadedRun_ends (few : empty ≤ 31)
    (after : (if empty = 0 then some (chain 0) else s.player.segments[chain (empty - 1)].next) = none) :
    (s.started (chain 0) period draws).loadedRun
      = ((s.started (chain 0) period draws).onPlayer (Player.skipped chain empty)).playEnds := by
  obtain ⟨fuel, skips⟩ := State.loadSegment_skips false (s.started (chain 0) period draws) chain empty rfl noRecords linked
    ((Nat.zero_add _).trans_le few)
  refine State.loadedRun_stops (skips.trans (State.loadSegment_ends false _ fuel after)) ?_
  rw [State.playEnds_player]
  nofun

/-- A chain of 32 empty segments halts the player. -/
theorem State.loadedRun_halts (full : empty = 32) : (s.started (chain 0) period draws).loadedRun
    = ((s.started (chain 0) period draws).onPlayer (Player.skipped chain empty)).playerHalts .haltedChainEmpty := by
  refine State.loadedRun_stops (State.loadSegment_halts false (s.started (chain 0) period draws) chain empty rfl noRecords
    linked (full ▸ nofun) ((Nat.zero_add _).trans full)) ?_
  rw [State.playerHalts_player]
  nofun

end

/-! ### The commands -/

section
variable {s : State}

theorem exec_playStart (segment : Byte) (taking : s.taking) : exec (.playStart segment) s
    = .next (State.conclude 0x56#8 false (servePlayStart segment s)) :=
  unlessReset_arrive_taking (.playStart segment) s taking rfl

/-- PLAY START of a segment in IDLE (R160). -/
theorem exec_playStart_idle (n : Fin 32) (taking : s.taking) (idle : s.player.state = .idle) :
    exec (.playStart (BitVec.ofNat 8 n.val)) s = .next ((s.startPlay n).replying 0x56#8 .ok []) := by
  have number : (BitVec.ofNat 8 n.val).toNat = n.val := by
    rw [BitVec.toNat_ofNat]
    omega
  have known : segmentNumberOf (BitVec.ofNat 8 n.val) = some n :=
    (segmentNumberOf_known (number.trans_lt n.2)).trans (congrArg some (Fin.ext number))
  rw [exec_playStart _ taking, servePlayStart, known]
  simp only [if_pos idle]
  rfl

theorem exec_playStop (taking : s.taking) : exec .playStop s = .next (State.conclude 0x59#8 false (servePlayStop s)) :=
  unlessReset_arrive_taking .playStop s taking rfl

theorem servePlayStop_stopped (stopped : s.player.state = .idle ∨ s.player.state = .haltedBadEvent
    ∨ s.player.state = .haltedChainEmpty) : servePlayStop s = .ok s := by
  obtain stopped | stopped | stopped := stopped <;> rw [servePlayStop, stopped]

theorem servePlayStop_plays (plays : s.player.state = .running ∨ s.player.state = .waiting
    ∨ s.player.state = .pausedRunning ∨ s.player.state = .pausedWaiting) :
    servePlayStop s = .ok (s.playbackClearing.onPlayer fun p => { p with state := .idle }) := by
  obtain plays | plays | plays | plays := plays <;> rw [servePlayStop, plays]

end

/-- The pedals after a playback clearing: the merged values are the live ones, and the latch is of the keys alone (R48 to R50,
R166). -/
theorem State.clearPlaybackPedals_pedals (s : State) (held : s.player.held = []) : s.clearPlaybackPedals.pedals
    = { s.pedals with
      playback := ⟨0, false, 0, 0⟩, mergedLift := s.pedals.live.lift, mergedSostenuto := s.pedals.live.sostenuto
      latch := if s.pedals.live.sostenuto then (if s.pedals.mergedSostenuto then s.pedals.latch else
        allKeys.filter fun k => decide (s.scanner.keys[k].phase ≠ .idle)) else [] } := by
  have cleared : s.clearPlaybackPedals = s.pedalsWritten ⟨0, false, 0, 0⟩ := rfl
  rw [cleared, State.pedalsWritten_eq]
  simp only [Bool.or_false, Nat.max_zero, held, List.not_mem_nil, or_false]

/-- Settles O51: a start is its first period and its first load, by the chain of empty segments; a stop is the clearing. -/
theorem playStartsAndStops : Obligations.PlayStartsAndStops := by
  intro s taking ok
  refine ⟨fun segment => ⟨fun unknown => ?_, fun known busy => ?_⟩, fun chain empty idle noRecords linked => ?_,
    fun stopped => ?_, fun plays => ?_⟩
  · rw [exec_playStart segment taking, servePlayStart, segmentNumberOf_unknown unknown]
    rfl
  · rw [exec_playStart segment taking, servePlayStart, segmentNumberOf_known known]
    simp only [if_neg busy]
    rfl
  · intro start after answered
    have starts (t : State) (is : s.startPlay (chain 0) = t) : exec start s = answered t :=
      is ▸ exec_playStart_idle (chain 0) taking idle
    refine ⟨fun n found records few => ?_, fun atEnd few => ?_, fun full => ?_⟩
    · intro seg time begun runs
      have begins (period draws : Nat)
          (is : s.startPlay (chain 0) = (s.started (chain 0) period draws).loadedRun) : runs (begun period draws) := by
        have run := is.trans (State.loadedRun_begins period draws noRecords linked few found records)
        refine ⟨starts _ run, fun later => (starts _ run).trans ?_⟩
        have stops : ¬((begun period draws).player.state = .running ∧ (begun period draws).player.countdown = 0) := by
          simp only [begun, State.offerMark_player]
          exact fun h => later h.2
        exact congrArg answered (State.firingRun_stops _ _ _ stops)
      refine ⟨fun copy => ?_, fun m old copy => begins _ _ (s.startPlay_copy (chain 0) copy)⟩
      obtain ⟨period, least, most, is⟩ := s.startPlay_free (chain 0) copy
      exact ⟨period, least, most, begins _ _ is⟩
    · obtain ⟨period, draws, is⟩ := s.startPlay_started (chain 0)
      have ends := is.trans (State.loadedRun_ends period draws noRecords linked few atEnd)
      have player := State.playEnds_player ((s.started (chain 0) period draws).onPlayer (Player.skipped chain empty))
      have pending := State.playEnds_pending ((s.started (chain 0) period draws).onPlayer (Player.skipped chain empty))
      rw [← ends] at player pending
      exact ⟨_, starts _ rfl, congrArg Player.state player, congrArg Player.tempo player,
        (congrArg Player.skips player).trans (Nat.zero_add empty), State.replying_pending pending, rfl⟩
    · obtain ⟨period, draws, is⟩ := s.startPlay_started (chain 0)
      have halts := is.trans (State.loadedRun_halts period draws noRecords linked full)
      have player := State.playerHalts_player .haltedChainEmpty
        ((s.started (chain 0) period draws).onPlayer (Player.skipped chain empty))
      have pending := State.playerHalts_pending .haltedChainEmpty
        ((s.started (chain 0) period draws).onPlayer (Player.skipped chain empty))
      rw [← halts] at player pending
      exact ⟨_, starts _ rfl, congrArg Player.state player, congrArg Player.tempo player,
        (congrArg Player.skips player).trans ((Nat.zero_add empty).trans full), State.replying_pending pending, rfl⟩
  · rw [exec_playStop taking, servePlayStop_stopped stopped]
    rfl
  · intro u
    refine ⟨_, (exec_playStop taking).trans (congrArg _ (congrArg _ (servePlayStop_plays plays))), ?_⟩
    have closes : s.playbackClearing.onPlayer (fun p => { p with state := .idle }) = _ :=
      State.playbackClearing_closes .idle s s.player rfl
    have pedals := (s.onPlayer fun p => { p with held := [] }).clearPlaybackPedals_pedals rfl
    rw [closes]
    exact ⟨rfl, rfl, rfl, pedals⟩

end Sys2Proof.Machine
end

section
/-! PROOFS. What the blocks leave of the Control Link (R177, R179 to R182): of the link they change the notices and the
operation slot alone, and they never touch the queue of waiting commands. -/

namespace Sys2Proof.Machine

/-! ### The relation, and the frames that give it -/

/-- The waiting commands stay, and of the Control Link nothing but the notices and the operation slot changes. -/
def KeepsTransport (s t : State) : Prop :=
  t.pending = s.pending ∧ ∃ n m slot, t.link = { s.link with pendingSet := n, maskSet := m, slot := slot }

theorem KeepsTransport.of_eq {s t : State} (pending : t.pending = s.pending) (link : t.link = s.link) : KeepsTransport s t :=
  ⟨pending, s.link.pendingSet, s.link.maskSet, s.link.slot, link⟩

theorem KeepsTransport.refl (s : State) : KeepsTransport s s := .of_eq rfl rfl

theorem KeepsTransport.trans {s t u : State} (h : KeepsTransport s t) (g : KeepsTransport t u) : KeepsTransport s u := by
  obtain ⟨pending, n, m, slot, link⟩ := h
  obtain ⟨pending', n', m', slot', link'⟩ := g
  exact ⟨pending'.trans pending, n', m', slot', by rw [link', link]⟩

theorem State.onTouch_transport (f : TouchUnit → TouchUnit) (s : State) : KeepsTransport s (s.onTouch f) := .of_eq rfl rfl

theorem State.onScanner_transport (f : Scanner → Scanner) (s : State) : KeepsTransport s (s.onScanner f) := .of_eq rfl rfl

theorem State.onRail_transport (f : Rail → Rail) (s : State) : KeepsTransport s (s.onRail f) := .of_eq rfl rfl

theorem State.onVoice_transport (f : VoiceEngine → VoiceEngine) (s : State) : KeepsTransport s (s.onVoice f) :=
  .of_eq rfl rfl

theorem SenseWork.transport {s t : State} (h : SenseWork s t) : KeepsTransport s t := by
  obtain ⟨c, l, r, slot, _, ⟨p, d, q, v, n, k, rfl, -⟩, -, rfl⟩ := h
  exact ⟨rfl, n, s.link.maskSet, slot, rfl⟩

theorem PlayWork.transport {s t : State} (h : PlayWork s t) : KeepsTransport s t := h.sense.transport

theorem RailWork.transport {s t : State} (h : RailWork s t) : KeepsTransport s t := h.sense.transport

theorem LinkWork.transport {s t : State} (h : LinkWork s t) : KeepsTransport s t := h.rail.transport

theorem WaveWork.transport {s t : State} (h : WaveWork s t) : KeepsTransport s t := by
  obtain ⟨v, w, rfl⟩ := h
  exact .of_eq rfl rfl

theorem PedalWork.transport {s t : State} (h : PedalWork s t) : KeepsTransport s t := by
  obtain ⟨d, r, n, rfl⟩ := h
  exact ⟨rfl, n, s.link.maskSet, s.link.slot, rfl⟩

/-! ### Operations (R186, R189) -/

theorem State.startOperation_transport (op : Operation) (s : State) : KeepsTransport s (s.startOperation op) := by
  have begun : KeepsTransport s (s.beginOperation op) := ⟨rfl, s.link.pendingSet, s.link.maskSet, .running op, rfl⟩
  cases op with
  | startup => exact begun.trans (State.beginLoad_wave _).transport
  | loadZones => exact begun.trans (State.beginLoad_wave _).transport
  | learnRest => exact begun
  | railCalibrate => exact begun.trans (RailWork.transport ((State.onRail_work _ _ rfl).trans (State.quietGrant_rail _)))

theorem State.abortCalibration_transport (s : State) : KeepsTransport s s.abortCalibration := by
  unfold State.abortCalibration
  split
  case h_3 => exact ((State.onRail_work _ s rfl).trans (State.quietGrant_rail _)).transport
  all_goals exact .of_eq rfl rfl

theorem State.abortOperation_transport (op : Operation) (s : State) : KeepsTransport s (s.abortOperation op) := by
  cases op with
  | loadZones => exact s.abortLoad_wave.transport.trans (State.endOperation_frame _ _ _).transport
  | learnRest => exact (State.endOperation_frame _ _ s.abortLearning).transport
  | railCalibrate => exact s.abortCalibration_transport.trans (State.endOperation_frame _ _ _).transport
  | startup =>
    refine KeepsTransport.trans ?_ (State.endOperation_frame _ _ _).transport
    split
    · exact s.abortLoad_wave.transport
    · exact .of_eq rfl rfl

theorem serveStartOperation_transport (code : Byte) (s : State) : KeepsTransport s (serveStartOperation code s).after := by
  unfold serveStartOperation
  split
  · exact .refl s
  · split
    · exact .refl s
    · split
      · exact .refl s
      · exact s.startOperation_transport _

theorem serveAbortOperation_transport (s : State) : KeepsTransport s (serveAbortOperation s).after := by
  unfold serveAbortOperation
  split
  · exact s.abortOperation_transport _
  · exact .refl s

/-! ### Requests of the blocks -/

theorem serveSetRailMode_transport (code : Byte) (s : State) : KeepsTransport s (serveSetRailMode code s).after := by
  have move (target origin : RailEnd) : KeepsTransport s (s.setUpMove target origin) :=
    ((State.onRail_work _ s rfl).trans (State.quietGrant_rail _)).transport
  unfold serveSetRailMode
  split
  · exact .refl s
  · split
    case h_2 | h_4 => exact move _ _
    case h_5 => split <;> exact .of_eq rfl rfl
    all_goals exact .refl s

theorem serveClearRailFault_transport (s : State) : KeepsTransport s (serveClearRailFault s).after := by
  unfold serveClearRailFault
  split
  · split
    · exact .refl s
    · exact s.enterHoming_rail.transport
  · exact .refl s

theorem serveRecordStart_transport (mask : Byte) (s : State) : KeepsTransport s (serveRecordStart mask s).after := by
  unfold serveRecordStart
  split
  · exact .refl s
  · split
    · exact .refl s
    · exact ((s.onRecorder_work _).trans (State.offerOpening_play _)).transport

theorem servePlayStart_transport (segment : Byte) (s : State) : KeepsTransport s (servePlayStart segment s).after := by
  unfold servePlayStart
  split
  · exact .refl s
  · split
    · exact (s.startPlay_play _).transport
    · exact .refl s

theorem servePlayResume_transport (s : State) : KeepsTransport s (servePlayResume s).after := by
  unfold servePlayResume
  split
  · exact ((State.onPlayer_work _ s rfl rfl rfl rfl).trans (State.reloadTempo_play _)).transport
  all_goals exact .of_eq rfl rfl

theorem servePlayStop_transport (s : State) : KeepsTransport s (servePlayStop s).after := by
  unfold servePlayStop
  split
  case h_5 => exact .refl s
  all_goals exact s.playbackClearing_play.transport.trans (.of_eq rfl rfl)

theorem serveSetRegulation_transport (first count : Byte) (entries : List RegFields) (s : State) :
    KeepsTransport s (serveSetRegulation first count entries s).after := by
  unfold serveSetRegulation
  split
  · split
    · simp only [Served.ok, Served.after, State.onTouch_transport]
    · exact .refl s
  · exact .refl s

theorem serveGetKeyCounters_transport (first count : Byte) (s : State) :
    KeepsTransport s (serveGetKeyCounters first count s).after := by
  unfold serveGetKeyCounters
  split
  · simp only [Served.give, Served.after, State.onScanner_transport]
  · exact .refl s

theorem serveClearNotices_transport (notices : Half) (s : State) :
    KeepsTransport s (serveClearNotices notices s).after := by
  unfold serveClearNotices
  split
  · exact .refl s
  · exact ⟨rfl, _, s.link.maskSet, s.link.slot, rfl⟩

theorem serveSetNoticeMask_transport (notices : Half) (s : State) :
    KeepsTransport s (serveSetNoticeMask notices s).after := by
  unfold serveSetNoticeMask
  split
  · exact .refl s
  · exact ⟨rfl, s.link.pendingSet, _, s.link.slot, rfl⟩

theorem serveGetOperationResult_transport (s : State) : KeepsTransport s (serveGetOperationResult s).after := by
  unfold serveGetOperationResult
  split
  · exact .refl s
  · exact .refl s
  · exact ⟨rfl, s.link.pendingSet, s.link.maskSet, .empty, rfl⟩

/-- Every request leaves the transport alone: most leave the whole link alone. -/
theorem serveRequest_transport (r : Request) (s : State) : KeepsTransport s (serveRequest r s).after := by
  cases r with
  | startOperation code => exact serveStartOperation_transport code s
  | abortOperation => exact serveAbortOperation_transport s
  | clearNotices notices => exact serveClearNotices_transport notices s
  | setNoticeMask notices => exact serveSetNoticeMask_transport notices s
  | getOperationResult => exact serveGetOperationResult_transport s
  | setRailMode code => exact serveSetRailMode_transport code s
  | clearRailFault => exact serveClearRailFault_transport s
  | recordStart mask => exact serveRecordStart_transport mask s
  | setRegulation first count entries => exact serveSetRegulation_transport first count entries s
  | getKeyCounters first count => exact serveGetKeyCounters_transport first count s
  | readWaveStore address count => exact (serveReadWaveStore_wave address count s).transport
  | playStart segment => exact servePlayStart_transport segment s
  | playResume => exact servePlayResume_transport s
  | playStop => exact servePlayStop_transport s
  | _ =>
    simp only [serveRequest, serveGetIdentity, serveGetStatus, serveResetPart, serveReadNotices, serveGetKeyState,
      serveGetRegulation, serveSetTouchCurve, serveGetTouchCurve,
      serveGetPedalState, serveSetPedalMap, serveSetRailDrive, serveGetRailState, serveSetSoundOptions, serveGetVoiceState,
      serveGetZone, serveSetOutputGain, serveSetRoute, serveGetOutput, serveRecordStop, serveRecordFlush,
      serveReadRecordBlock, serveWritePassage, serveReadPassage, serveWriteSegment, serveReadSegment, serveSetSplit,
      serveSetMasterTempo, servePlayPause, servePlayReset, serveGetPlayStatus]
    repeat' split
    all_goals exact .of_eq rfl rfl

/-! ### Learning, the scan and the arrivals -/

theorem State.takeLearning_transport (s : State) : KeepsTransport s s.takeLearning := by
  unfold State.takeLearning
  split
  · rename_i l _
    have learned : KeepsTransport s (s.learned l) := .of_eq rfl rfl
    split
    · by_cases slot : s.link.slot = .running .startup
      · rw [s.completeLearning_startup l slot]
        exact learned.trans (State.endOperation_frame _ _ _).transport
      · rw [s.completeLearning_alone l slot]
        exact learned.trans (State.endOperation_frame _ _ _).transport
    · exact .refl s
  · exact .refl s

theorem State.scan_transport (samples : ScanSamples) (s : State) : KeepsTransport s (s.scan samples) := by
  have leftovers : KeepsTransport s s.takeScanLeftovers :=
    ((s.takeSostenuto_play.transport.trans (State.takeSwitch_rail .opened _).transport).trans
      (State.takeSwitch_rail .closed _).transport).trans (State.takeLearning_transport _)
  have sensors (t : State) : KeepsTransport t (t.scanSensors samples) :=
    (((t.onTouch_transport _).trans (State.onScanner_transport _ _)).trans (State.onVoice_transport _ _)).trans
      (t.scanSensors_pedalWork samples).transport
  exact ((leftovers.trans (sensors _)).trans (State.onRail_transport _ _)).trans (State.onScanner_transport _ _)

/-- Taking a note request changes the Voice Engine and the Wave Fetch Unit (R83). -/
theorem State.takeRequestOf_transport (source : Source) (n : NoteRequest) (take : State → State) (s : State)
    (keeps : ∀ t, KeepsTransport t (take t)) : KeepsTransport s (s.takeRequestOf source n take) := by
  unfold State.takeRequestOf
  split
  · exact (s.onVoice_transport _).trans (keeps _)
  · exact .refl s

theorem State.takeStrike_transport (source : Source) (key : Key) (level : Byte) (s : State) :
    KeepsTransport s (s.takeStrike source key level) := by
  obtain ⟨v, w, h⟩ := s.takeStrike_frame source key level
  rw [h]
  exact .of_eq rfl rfl

theorem State.takeRelease_transport (source : Source) (key : Key) (level : Byte) (s : State) :
    KeepsTransport s (s.takeRelease source key level) := by
  obtain ⟨v, h⟩ := s.takeRelease_frame source key level
  rw [h]
  exact .of_eq rfl rfl

theorem State.envelopeTick_transport (s : State) : KeepsTransport s s.perfTick.envelope :=
  s.takeMoveTimer_rail.transport.trans
    (KeepsTransport.trans (t := s.perfTick) (.of_eq rfl rfl) (State.envelope_wave _).transport)

theorem State.endLoad_transport (summary : LoadSummary) (s : State) : KeepsTransport s (s.endLoad summary) := by
  unfold State.endLoad
  extract_lets t u
  have raised : KeepsTransport s u := KeepsTransport.trans (t := t) (.of_eq rfl rfl) (t.raiseIf_frame _ _).transport
  split
  · exact raised.trans (u.endOperation_frame _ _).transport
  · exact raised
  · exact raised

theorem State.loadTakes_transport (data : List Byte) (s : State) : KeepsTransport s (s.loadTakes data) := by
  unfold State.loadTakes
  split
  · exact .refl s
  · split
    · unfold State.headerArrives
      extract_lets count total
      split
      · split
        · exact s.endLoad_transport _
        · exact .of_eq rfl rfl
      · exact s.endLoad_transport _
    · unfold State.entriesArrive
      extract_lets entries valid done skipped t
      split
      · exact t.endLoad_transport _
      · exact .of_eq rfl rfl

theorem State.loadReadArrives_transport (data : List Byte) (s : State) : KeepsTransport s (s.loadReadArrives data) := by
  unfold State.loadReadArrives
  split
  · split
    · refine KeepsTransport.trans ?_ (State.freePort_wave _).transport
      split
      · exact .refl s
      · exact s.loadTakes_transport data
    · exact .refl s
  · exact .refl s

end Sys2Proof.Machine
end

section
/-! PROOFS. The Control Link's invariant (R177, R179, R180, R182): what the receiver and the dispatcher leave of it, and
every command's next state. -/

namespace Sys2Proof.Machine

/-! ### The receiver's part and the dispatcher's part -/

/-- The receiver's part of the invariant, with the counters' ranges (R177, R182). -/
def Link.receives (l : Link) : Prop :=
  (l.interByte = none ↔ l.receiver = .hunt) ∧ l.receiver.ok ∧ l.badCheck ≤ 65535 ∧ l.framing ≤ 65535 ∧ l.overrun ≤ 65535

/-- The invariant is the receiver's part with that of the queue: a dispatcher that is not IDLE may leave frames waiting
(R179, R180). -/
theorem Link.ok_busy {l : Link} (busy : l.dispatcher ≠ .idle) (few : l.queue.length ≤ 4) (receives : l.receives) : l.ok :=
  ⟨few, fun idle => absurd idle busy, receives⟩

/-- The waiting commands stay, and the Control Link's invariant is kept. -/
def KeepsLink (s t : State) : Prop := t.pending = s.pending ∧ (s.link.ok → t.link.ok)

theorem KeepsLink.refl (s : State) : KeepsLink s s := ⟨rfl, id⟩

theorem KeepsLink.trans {s t u : State} (h : KeepsLink s t) (g : KeepsLink t u) : KeepsLink s u :=
  ⟨g.1.trans h.1, g.2 ∘ h.2⟩

/-- The notices and the operation slot have no part in the invariant. -/
theorem KeepsTransport.keepsLink {s t : State} (h : KeepsTransport s t) : KeepsLink s t := by
  obtain ⟨pending, n, m, slot, link⟩ := h
  exact ⟨pending, fun ok => link ▸ ok⟩

theorem State.onLink_keepsLink (f : Link → Link) (s : State) (keeps : s.link.ok → (f s.link).ok) :
    KeepsLink s (s.onLink f) := ⟨rfl, keeps⟩

theorem State.raise_keepsLink (n : Notice) (s : State) : KeepsLink s (s.raise n) := ⟨rfl, id⟩

theorem bump_range {c : Nat} (range : c ≤ 65535) : bump c ≤ 65535 := bump_le range

/-! ### The dispatcher (R179 to R181) -/

/-- A frame taken leaves the dispatcher SERVING or SENDING, with the rest of the transport as it was (R180). -/
def Answered (s t : State) : Prop :=
  t.pending = s.pending ∧ ∃ d n m slot, d ≠ .idle
    ∧ t.link = { s.link with dispatcher := d, pendingSet := n, maskSet := m, slot := slot }

theorem State.answer_answered (reply : Reply) (thenReset : Bool) (s : State) : Answered s (s.answer reply thenReset) :=
  ⟨rfl, .sending reply thenReset, s.link.pendingSet, s.link.maskSet, s.link.slot, nofun, rfl⟩

theorem State.conclude_answered {s : State} (kind : Byte) (thenReset : Bool) (v : Served)
    (served : KeepsTransport s v.after) : Answered s (State.conclude kind thenReset v) := by
  obtain ⟨pending, n, m, slot, link⟩ := served
  cases v with
  | reply status payload t =>
    exact ⟨pending, .sending ⟨kind, status, payload⟩ thenReset, n, m, slot, nofun,
      congrArg (fun l : Link => { l with dispatcher := .sending ⟨kind, status, payload⟩ thenReset }) link⟩
  | waiting t =>
    exact ⟨pending, .serving, n, m, slot, nofun, congrArg (fun l : Link => { l with dispatcher := .serving }) link⟩

theorem State.takeRequest_answered (r : Request) (s : State) : Answered s (s.takeRequest r) := by
  unfold State.takeRequest
  split
  · exact State.conclude_answered _ _ _ (serveRequest_transport r s)
  · exact s.answer_answered _ _

theorem State.takeBody_answered (body : List Byte) (s : State) : Answered s (s.takeBody body) := by
  unfold State.takeBody
  split
  · exact s.answer_answered _ _
  · exact s.answer_answered _ _
  · exact s.takeRequest_answered _

theorem Answered.link_ok {s t : State} (h : Answered s t) (few : s.link.queue.length ≤ 4) (receives : s.link.receives) :
    t.link.ok := by
  obtain ⟨-, d, n, m, slot, busy, link⟩ := h
  rw [link]
  exact Link.ok_busy busy few receives

theorem Answered.keepsLink {s t : State} (h : Answered s t) : KeepsLink s t :=
  ⟨h.1, fun ⟨few, _, receives⟩ => h.link_ok few receives⟩

/-- An IDLE dispatcher with a frame in the queue takes it, so that none waits in IDLE (R180). -/
theorem State.pump_pending (s : State) : s.pump.pending = s.pending := by
  unfold State.pump
  split
  · exact (State.takeBody_answered _ _).1
  · rfl

theorem State.pump_link_ok (s : State) (few : s.link.queue.length ≤ 4) (receives : s.link.receives) : s.pump.link.ok := by
  unfold State.pump
  split
  · rename_i body rest idle queue
    rw [queue] at few
    exact (State.takeBody_answered body _).link_ok (Nat.le_of_succ_le few) receives
  · rename_i nothing
    refine ⟨few, fun idle => ?_, receives⟩
    cases queue : s.link.queue with
    | nil => rfl
    | cons body rest => exact absurd queue (nothing body rest idle)

/-- Four frames wait at most (R179). -/
theorem State.offerBody_keepsLink (body : List Byte) (s : State) : KeepsLink s (s.offerBody body) := by
  unfold State.offerBody
  split
  · rename_i room
    refine ⟨State.pump_pending (s.onLink _), fun ⟨_, _, receives⟩ => State.pump_link_ok _ ?_ receives⟩
    rw [State.onLink_link, List.length_append]
    exact room
  · refine (s.onLink_keepsLink _ ?_).trans (State.raise_keepsLink _ _)
    rintro ⟨few, idle, timer, receiver, bad, framing, overrun⟩
    exact ⟨few, idle, timer, receiver, bad, framing, bump_range overrun⟩

theorem State.arrive_keepsLink (r : Request) (s : State) : KeepsLink s (s.arrive r) := by
  unfold State.arrive
  split
  · exact (s.takeRequest_answered r).keepsLink
  · exact s.offerBody_keepsLink _

theorem State.arriveBody_keepsLink (kind : Byte) (payload : List Byte) (s : State) :
    KeepsLink s (s.arriveBody kind payload) := by
  unfold State.arriveBody
  split
  · exact (s.takeBody_answered _).keepsLink
  · exact s.offerBody_keepsLink _

/-! ### The receiver (R177, R178) -/

/-- The timer runs within a frame, whose part received fits its LEN (R177). -/
theorem State.expectByte_keepsLink (r : Receiver) (s : State) (inside : r ≠ .hunt) (fits : s.link.ok → r.ok) :
    KeepsLink s (s.expectByte r) := by
  refine s.onLink_keepsLink _ fun ok => ?_
  obtain ⟨few, idle, -, -, counters⟩ := id ok
  exact ⟨few, idle, iff_of_false nofun inside, fits ok, counters⟩

theorem State.hunt_keepsLink (s : State) : KeepsLink s s.hunt := by
  refine s.onLink_keepsLink _ ?_
  rintro ⟨few, idle, -, -, counters⟩
  exact ⟨few, idle, iff_of_true rfl rfl, trivial, counters⟩

theorem State.framingError_keepsLink (s : State) : KeepsLink s s.framingError := by
  refine (s.onLink_keepsLink _ ?_).trans (State.raise_keepsLink _ _)
  rintro ⟨few, idle, -, -, bad, framing, overrun⟩
  exact ⟨few, idle, iff_of_true rfl rfl, trivial, bad, bump_range framing, overrun⟩

theorem State.takeInterByte_keepsLink (s : State) : KeepsLink s s.takeInterByte := by
  unfold State.takeInterByte
  split
  · exact s.framingError_keepsLink
  · exact .refl s

theorem State.brokenByte_keepsLink (s : State) : KeepsLink s s.brokenByte := by
  unfold State.brokenByte
  split
  · exact .refl s
  · exact s.framingError_keepsLink

theorem State.frameComplete_keepsLink (len : Nat) (body : List Byte) (chk : Byte) (s : State) :
    KeepsLink s (s.frameComplete len body chk) := by
  unfold State.frameComplete
  extract_lets t
  refine s.hunt_keepsLink.trans ?_
  split
  · exact t.offerBody_keepsLink body
  · refine (t.onLink_keepsLink _ ?_).trans (State.raise_keepsLink _ _)
    rintro ⟨few, idle, timer, receiver, bad, counters⟩
    exact ⟨few, idle, timer, receiver, bump_range bad, counters⟩

/-- A byte taken keeps the part received within LEN: the body gathers bytes while it is shorter, and is as long at the
check byte (R177). -/
theorem State.takeByte_keepsLink (b : Byte) (s : State) : KeepsLink s (s.takeByte b) := by
  unfold State.takeByte
  split
  · split
    · exact s.expectByte_keepsLink _ nofun fun _ => trivial
    · exact .refl s
  · split
    · exact s.framingError_keepsLink
    · rename_i filled
      refine s.expectByte_keepsLink _ nofun fun _ => ⟨?_, Nat.le_of_lt_succ b.isLt⟩
      exact Nat.pos_of_ne_zero fun zero => filled (BitVec.eq_of_toNat_eq zero)
  · rename_i len got is
    extract_lets longer
    have grown : longer.length = got.length + 1 := List.length_append
    refine s.expectByte_keepsLink _ (by split <;> nofun) fun ok => ?_
    obtain ⟨-, -, -, receiver, -⟩ := ok
    rw [is] at receiver
    obtain ⟨short, byte⟩ := receiver
    split
    · rename_i more
      exact ⟨more, byte⟩
    · rename_i full
      exact ⟨by omega, byte⟩
  · exact s.frameComplete_keepsLink _ _ _

/-! ### Reset, replies, ticks and arrivals -/

theorem Link.reset_ok : Link.reset.ok :=
  ⟨Nat.zero_le 4, fun _ => rfl, iff_of_true rfl rfl, trivial, Nat.zero_le _, Nat.zero_le _, Nat.zero_le _⟩

theorem State.partReset_keepsLink (pins : Pins) (s : State) : KeepsLink s (s.partReset pins) := by
  have homed : KeepsLink _ (s.partReset pins) := (State.enterHoming_rail _).transport.keepsLink
  exact ⟨homed.1, fun _ => homed.2 Link.reset_ok⟩

/-- The end of a reply leaves the dispatcher IDLE with nothing waiting, or with the oldest frame taken (R180). -/
theorem State.replySent_keepsLink (pins : Pins) (s : State) : KeepsLink s (s.replySent pins) := by
  unfold State.replySent
  split
  · exact s.partReset_keepsLink pins
  · exact ⟨State.pump_pending (s.onLink _), fun ⟨few, _, receives⟩ => State.pump_link_ok _ few receives⟩
  · exact .refl s

theorem State.diagnosticArrives_keepsLink (data : List Byte) (s : State) : KeepsLink s (s.diagnosticArrives data) := by
  unfold State.diagnosticArrives
  split
  · split
    · extract_lets t
      refine s.freePort_wave.transport.keepsLink.trans ?_
      split
      · exact (t.answer_answered _ _).keepsLink
      · exact .refl t
    · exact .refl s
  · exact .refl s

theorem State.takeTickLeftovers_keepsLink (s : State) : KeepsLink s s.takeTickLeftovers :=
  (((State.foldl_sense _ State.takeKeyLeftovers_sense allKeys s).trans (State.takeSettle_sense _)).trans
    (State.takePlaybackTick_sense _)).transport.keepsLink.trans (State.takeInterByte_keepsLink _)

/-- The inter-byte timer runs down, and one at 0 stays due (R177). -/
theorem State.tick_keepsLink (g1 g2 : BitVec 88) (s : State) : KeepsLink s (s.tick g1 g2) := by
  have ticked : (s.tick g1 g2).link = { s.link with interByte := runDown s.link.interByte } := by
    simp only [State.tick, State.onLink, State.onPlayer, State.onScanner]
  refine ⟨by simp only [State.tick, State.onLink, State.onPlayer, State.onScanner], ?_⟩
  rw [ticked]
  rintro ⟨few, idle, timer, rest⟩
  exact ⟨few, idle, by simpa only [runDown, Option.map_eq_none_iff] using timer, rest⟩

/-! ### Every command -/

theorem unlessReset_keepsLink (f : State → State) (s : State) (keeps : KeepsLink s (f s)) :
    ∃ t, unlessReset f s = .next t ∧ KeepsLink s t := by
  refine ⟨_, rfl, ?_⟩
  split
  · exact .refl s
  · exact keeps

/-- Every command has a next state, with the waiting commands kept, and with the link's invariant if it held. -/
theorem exec_keepsLink (c : Instr) (s : State) : ∃ t, exec c s = .next t ∧ KeepsLink s t := by
  cases c with
  | resetNLow => exact ⟨s.heldInReset, rfl, rfl, fun _ => Link.reset_ok⟩
  | resetNHigh pins =>
    refine ⟨_, rfl, ?_⟩
    split
    · exact s.partReset_keepsLink pins
    · exact .refl s
  | receiveByte byte stopHigh =>
    refine unlessReset_keepsLink _ s ?_
    split
    · exact s.takeByte_keepsLink byte
    · exact s.brokenByte_keepsLink
  | interByteTimerExpiry => exact unlessReset_keepsLink _ s s.takeInterByte_keepsLink
  | replySent pins => exact unlessReset_keepsLink _ s (s.replySent_keepsLink pins)
  | unknownKind kind payload => exact unlessReset_keepsLink _ s (s.arriveBody_keepsLink kind payload)
  | gateSample g1 g2 =>
    exact unlessReset_keepsLink (fun s => s.takeTickLeftovers.tick g1 g2) s
      (s.takeTickLeftovers_keepsLink.trans (State.tick_keepsLink g1 g2 _))
  | gateCrossing key gate => exact unlessReset_keepsLink _ s (s.takeCrossing_sense key gate).transport.keepsLink
  | staleMarkSet key => exact unlessReset_keepsLink _ s (s.takeStale_sense key).transport.keepsLink
  | guardMarkSet key => exact unlessReset_keepsLink _ s (s.takeGuard_sense key).transport.keepsLink
  | settleTimerExpiry => exact unlessReset_keepsLink _ s s.takeSettle_sense.transport.keepsLink
  | scan samples => exact unlessReset_keepsLink _ s (s.scan_transport samples).keepsLink
  | learnRestComplete => exact unlessReset_keepsLink _ s s.takeLearning_transport.keepsLink
  | sostenutoConfirmed sample => exact unlessReset_keepsLink _ s (s.confirmSostenuto_play sample).transport.keepsLink
  | endSwitchConfirmed switch => exact unlessReset_keepsLink _ s (s.takeSwitch_rail switch).transport.keepsLink
  | railGuardAsserted =>
    refine ⟨_, rfl, ?_⟩
    split
    · exact (s.onRail_transport _).keepsLink
    · exact ((s.onRail_transport _).trans (State.railFaults_rail _ _).transport).keepsLink
  | railGuardReleased => exact ⟨_, rfl, (s.onRail_transport _).keepsLink⟩
  | moveTimerExpiry => exact unlessReset_keepsLink _ s s.takeMoveTimer_rail.transport.keepsLink
  | voiceStrike source key level =>
    exact unlessReset_keepsLink _ s
      (s.takeRequestOf_transport source (.strike key level) _ (State.takeStrike_transport source key level)).keepsLink
  | voiceRelease source key level =>
    exact unlessReset_keepsLink _ s
      (s.takeRequestOf_transport source (.release key level) _ (State.takeRelease_transport source key level)).keepsLink
  | envelopeTick => exact unlessReset_keepsLink (fun s => s.perfTick.envelope) s s.envelopeTick_transport.keepsLink
  | audioFrame =>
    refine ⟨_, rfl, ?_⟩
    split
    · exact ⟨rfl, id⟩
    · obtain ⟨a, v, w, e⟩ := s.audioFrame_frame
      rw [e]
      exact ⟨rfl, id⟩
  | fetchArrival data => exact unlessReset_keepsLink _ s (s.fetchArrives_wave data).transport.keepsLink
  | loadReadArrival data => exact unlessReset_keepsLink _ s (s.loadReadArrives_transport data).keepsLink
  | diagnosticReadArrival data => exact unlessReset_keepsLink _ s (s.diagnosticArrives_keepsLink data)
  | playbackTick => exact unlessReset_keepsLink _ s s.takePlaybackTick_sense.transport.keepsLink
  | _ => exact unlessReset_keepsLink _ s (s.arrive_keepsLink _)

/-- Settles O1: the step is exec of the front command by its definition. -/
theorem stepTakesTheFrontCommand : Obligations.StepTakesTheFrontCommand := by
  refine ⟨fun c rest s => rfl, fun s empty => ?_⟩
  rw [step, empty]

/-- Settles O2, with the frames of every command. -/
theorem everyCommandCompletes : Obligations.EveryCommandCompletes := by
  intro c s
  obtain ⟨t, next, pending, -⟩ := exec_keepsLink c s
  exact ⟨t, next, pending⟩

/-- Settles O55: every command keeps the invariant, and a step takes one command or idles. -/
theorem everyStepKeepsTheLink : Obligations.EveryStepKeepsTheLink := by
  intro s t ok h
  unfold step at h
  split at h
  · cases h
    exact ok
  · rename_i c rest _
    obtain ⟨u, next, -, keeps⟩ := exec_keepsLink c { s with pending := rest }
    cases next.symm.trans h
    exact keeps ok

end Sys2Proof.Machine
end

section
/-! PROOFS. The request codec (R176, R181, R194, R195): what the dispatcher reads from a body, and the check byte. -/

namespace Sys2Proof.Machine

/-! ### Kinds (11.3) -/

/-- The kind codes of 11.3. -/
def kindCodes : List Nat := [1, 2, 3, 4, 5, 6, 7, 8, 9, 16, 17, 18, 19, 20, 21, 32, 33, 40, 41, 42, 43, 48, 49, 50, 51, 56,
  57, 58, 64, 65, 66, 67, 80, 81, 82, 83, 84, 85, 86, 87, 88, 89, 90, 91]

/-- One request of each kind. -/
def oneOfEach : List Request := [.getIdentity, .getStatus, .resetPart, .readNotices, .clearNotices 0, .setNoticeMask 0,
  .startOperation 0, .abortOperation, .getOperationResult, .getKeyState 0 0, .getKeyCounters 0 0, .setRegulation 0 0 [],
  .getRegulation 0 0, .setTouchCurve (Vector.replicate 9 ⟨0, 0⟩), .getTouchCurve, .getPedalState, .setPedalMap 0 0,
  .setRailMode 0, .clearRailFault, .setRailDrive 0, .getRailState, .setSoundOptions 0, .getVoiceState 0 0,
  .readWaveStore 0 0, .getZone 0 0, .setOutputGain 0 0 0, .setRoute 0 0 0, .getOutput, .recordStart 0, .recordStop,
  .recordFlush, .readRecordBlock, .writePassage 0 0 [], .readPassage 0 0, .writeSegment 0 ⟨0, 0, 0, 0, 0, 0, 0⟩, .readSegment 0,
  .setSplit 0, .setMasterTempo 0, .playStart 0, .playPause, .playResume, .playStop, .playReset, .getPlayStatus]

theorem kindCodes_eq : kindCodes = oneOfEach.map fun r => r.kind.toNat := by decide

/-- Whether a kind is known does not depend on the payload that follows it (R181). -/
theorem parsePayload_eq_none_iff (kind : Byte) (payload : List Byte) :
    parsePayload kind payload = none ↔ kind.toNat ∉ kindCodes := by
  unfold parsePayload
  split
  case h_88 =>
    refine iff_of_true rfl ?_
    simp only [kindCodes, List.mem_cons, List.not_mem_nil, or_false, not_or]
    and_intros <;> assumption
  all_goals
    refine iff_of_false nofun (not_not_intro ?_)
    rw [‹kind.toNat = _›]
    decide

theorem isKind_iff (kind : Byte) : isKind kind = true ↔ kind.toNat ∈ kindCodes := by
  rw [isKind, Option.isSome_iff_ne_none, Ne, parsePayload_eq_none_iff, not_not]

theorem parsePayload_unknown {kind : Byte} (payload : List Byte) (unknown : isKind kind = false) :
    parsePayload kind payload = none :=
  (parsePayload_eq_none_iff kind payload).2 fun known => Bool.eq_false_iff.1 unknown ((isKind_iff kind).2 known)

theorem kind_mem_kindCodes (r : Request) : r.kind.toNat ∈ kindCodes := by
  cases r <;> simp only [Request.kind] <;> decide

theorem isKind_iff_exists (kind : Byte) : isKind kind = true ↔ ∃ r : Request, r.kind = kind := by
  rw [isKind_iff]
  constructor
  · rw [kindCodes_eq, List.mem_map]
    rintro ⟨r, -, same⟩
    exact ⟨r, BitVec.eq_of_toNat_eq same⟩
  · rintro ⟨r, rfl⟩
    exact kind_mem_kindCodes r

/-- No kind code has its top bit set, which marks a reply (R176). -/
theorem isKind_high {kind : Byte} (high : 0x80 ≤ kind.toNat) : isKind kind = false := by
  have low : ∀ code ∈ kindCodes, code < 0x80 := by decide
  exact Bool.eq_false_iff.2 fun known => Nat.not_lt.2 high (low _ ((isKind_iff kind).1 known))

/-! ### Runs of entries and their bytes (R194, 11.5, 11.6) -/

theorem halfBytes_half (a b : Byte) : halfBytes (half a b) = [a, b] := by
  have low : (b ++ a).extractLsb' 0 8 = a := BitVec.extractLsb'_append_eq_right
  have high : (b ++ a).extractLsb' 8 8 = b := BitVec.extractLsb'_append_eq_left
  rw [halfBytes, half, low, high]

theorem longBytes_long (a b c d : Byte) : longBytes (long a b c d) = [a, b, c, d] := by
  simp only [longBytes, long, List.cons.injEq, and_true]
  refine ⟨?_, ?_, ?_, ?_⟩ <;> (ext i hi; simp; grind)

theorem regEntries_bytes (entries : List RegFields) : regEntries (entries.flatMap RegFields.bytes) = entries := by
  induction entries with
  | nil => rfl
  | cons e rest ih =>
    rw [List.flatMap_cons]
    simp only [RegFields.bytes, halfBytes, List.cons_append, List.nil_append, regEntries, half_of_bytes, ih]

theorem curvePoints_bytes (points : List CurvePoint) : curvePoints (points.flatMap CurvePoint.bytes) = points := by
  induction points with
  | nil => rfl
  | cons p rest ih =>
    rw [List.flatMap_cons]
    simp only [CurvePoint.bytes, halfBytes, List.cons_append, List.nil_append, curvePoints, half_of_bytes, ih]

theorem recordRun_bytes (records : List Record) : recordRun (records.flatMap Record.bytes) = records := by
  induction records with
  | nil => rfl
  | cons r rest ih =>
    rw [List.flatMap_cons]
    simp only [Record.bytes, List.cons_append, List.nil_append, recordRun, ih]

/-- A run of bytes that is a whole number of entries long is that of the entries read from it. -/
theorem bytes_regEntries (bytes : List Byte) (n : Nat) (whole : bytes.length = 12 * n) :
    (regEntries bytes).flatMap RegFields.bytes = bytes ∧ (regEntries bytes).length = n := by
  induction n generalizing bytes with
  | zero =>
    cases List.length_eq_zero_iff.1 whole
    exact ⟨rfl, rfl⟩
  | succ n ih =>
    match bytes, whole with
    | a :: b :: c :: d :: e :: f :: g :: h :: i :: j :: k :: l :: rest, whole =>
      obtain ⟨read, count⟩ := ih rest (by simp only [List.length_cons] at whole; omega)
      simp only [regEntries, List.flatMap_cons, List.length_cons, RegFields.bytes, halfBytes_half, read, count,
        List.cons_append, List.nil_append, and_self]

theorem bytes_curvePoints (bytes : List Byte) (n : Nat) (whole : bytes.length = 3 * n) :
    (curvePoints bytes).flatMap CurvePoint.bytes = bytes := by
  induction n generalizing bytes with
  | zero =>
    cases List.length_eq_zero_iff.1 whole
    rfl
  | succ n ih =>
    match bytes, whole with
    | a :: b :: c :: rest, whole =>
      have read := ih rest (by simp only [List.length_cons] at whole; omega)
      simp only [curvePoints, List.flatMap_cons, CurvePoint.bytes, halfBytes_half, read, List.cons_append, List.nil_append]

theorem bytes_recordRun (bytes : List Byte) (n : Nat) (whole : bytes.length = 4 * n) :
    (recordRun bytes).flatMap Record.bytes = bytes ∧ (recordRun bytes).length = n := by
  induction n generalizing bytes with
  | zero =>
    cases List.length_eq_zero_iff.1 whole
    exact ⟨rfl, rfl⟩
  | succ n ih =>
    match bytes, whole with
    | a :: b :: c :: d :: rest, whole =>
      obtain ⟨read, count⟩ := ih rest (by simp only [List.length_cons] at whole; omega)
      simp only [recordRun, List.flatMap_cons, List.length_cons, Record.bytes, read, count, List.cons_append,
        List.nil_append, and_self]

theorem length_flatMap_const {α : Type} (f : α → List Byte) (k : Nat) (each : ∀ a, (f a).length = k) (l : List α) :
    (l.flatMap f).length = k * l.length := by
  simp only [List.length_flatMap, each, List.map_const', List.sum_replicate, smul_eq_mul, Nat.mul_comm]

/-! ### What a body reads as (R181, R195) -/

/-- A request reads back from its own bytes, when it carries as many entries as its count says. -/
theorem parsePayload_payload (r : Request) (length : r.lengthOk = true) : parsePayload r.kind r.payload = some (some r) := by
  cases r with
  | setRegulation first count entries =>
    have entries' : entries.length = count.toNat := of_decide_eq_true length
    have whole : (entries.flatMap RegFields.bytes).length = 12 * count.toNat := by
      rw [length_flatMap_const RegFields.bytes 12 (fun _ => rfl), entries']
    exact (congrArg some (if_pos whole)).trans
      (congrArg (fun l => some (some (Request.setRegulation first count l))) (regEntries_bytes entries))
  | setTouchCurve points =>
    have read : curvePoints (points.toList.flatMap CurvePoint.bytes) = points.toList := curvePoints_bytes points.toList
    have whole : (points.toList.flatMap CurvePoint.bytes).length = 27 := by
      rw [length_flatMap_const CurvePoint.bytes 3 (fun _ => rfl), Vector.length_toList]
    have nine : (curvePoints (points.toList.flatMap CurvePoint.bytes)).length = 9 := by rw [read, Vector.length_toList]
    exact (congrArg some (dif_pos ⟨nine, whole⟩)).trans
      (congrArg (fun v => some (some (Request.setTouchCurve v))) (Vector.toList_inj.1 read))
  | writePassage start count records =>
    have records' : records.length = count.toNat := of_decide_eq_true length
    have whole : (records.flatMap Record.bytes).length = 4 * count.toNat := by
      rw [length_flatMap_const Record.bytes 4 (fun _ => rfl), records']
    exact (congrArg some (if_pos whole)).trans (congrArg₂ (fun a l => some (some (Request.writePassage a count l)))
      (half_of_bytes start) (recordRun_bytes records))
  | clearNotices notices => exact congrArg (some ∘ some ∘ Request.clearNotices) (half_of_bytes notices)
  | setNoticeMask notices => exact congrArg (some ∘ some ∘ Request.setNoticeMask) (half_of_bytes notices)
  | setPedalMap contact full =>
    exact congrArg₂ (fun a b => some (some (Request.setPedalMap a b))) (half_of_bytes contact) (half_of_bytes full)
  | readWaveStore address count =>
    exact congrArg (fun a => some (some (Request.readWaveStore a count))) (long_of_bytes address)
  | getZone first count => exact congrArg (fun a => some (some (Request.getZone a count))) (half_of_bytes first)
  | readPassage start count => exact congrArg (fun a => some (some (Request.readPassage a count))) (half_of_bytes start)
  | writeSegment number entry =>
    exact congrArg₂ (fun a b => some (some (Request.writeSegment number ⟨a, b, entry.repeats, entry.tempo, entry.hands,
      entry.wait, entry.next⟩))) (half_of_bytes entry.start) (half_of_bytes entry.count)
  | _ => rfl

/-- A payload that reads as a request is that request's, with as many entries as its count says. -/
theorem payload_of_parsePayload {kind : Byte} {payload : List Byte} {r : Request}
    (read : parsePayload kind payload = some (some r)) :
    r.kind.toNat = kind.toNat ∧ r.payload = payload ∧ r.lengthOk = true := by
  unfold parsePayload at read
  split at read
  case h_12 first count rest is =>
    split at read <;> cases read
    rename_i whole
    obtain ⟨bytes, entries⟩ := bytes_regEntries rest count.toNat whole
    exact ⟨is.symm, congrArg (fun l => first :: count :: l) bytes, decide_eq_true entries⟩
  case h_14 is =>
    split at read <;> cases read
    rename_i whole
    exact ⟨is.symm, bytes_curvePoints _ 9 whole.2, rfl⟩
  case h_33 s0 s1 count rest is =>
    split at read <;> cases read
    rename_i whole
    obtain ⟨bytes, records⟩ := bytes_recordRun rest count.toNat whole
    refine ⟨is.symm, ?_, decide_eq_true records⟩
    rw [Request.payload, halfBytes_half, bytes]
    rfl
  all_goals cases read
  all_goals refine ⟨‹kind.toNat = _›.symm, ?_, rfl⟩
  all_goals simp only [Request.payload, halfBytes_half, longBytes_long, SegFields.bytes, List.cons_append, List.nil_append]

/-- A request's body reads as that request. -/
theorem parseBody_body (r : Request) (length : r.lengthOk = true) : parseBody r.body = .request r := by
  simp only [Request.body, parseBody, parsePayload_payload r length]

theorem parseBody_unknown {kind : Byte} (payload : List Byte) (unknown : isKind kind = false) :
    parseBody (kind :: payload) = .unknownKind kind := by
  simp only [parseBody, parsePayload_unknown payload unknown]

/-- A known kind whose bytes are those of no request has a bad length (R195). -/
theorem parseBody_badLength {kind : Byte} {payload : List Byte} (known : isKind kind = true)
    (none' : ∀ r : Request, r.lengthOk = true → r.body ≠ kind :: payload) :
    parseBody (kind :: payload) = .badLength kind := by
  cases read : parsePayload kind payload with
  | none => exact absurd ((isKind_iff kind).1 known) ((parsePayload_eq_none_iff kind payload).1 read)
  | some parsed =>
    cases parsed with
    | none => simp only [parseBody, read]
    | some r =>
      obtain ⟨code, bytes, length⟩ := payload_of_parsePayload read
      exact absurd (congrArg₂ List.cons (BitVec.eq_of_toNat_eq code) bytes) (none' r length)

/-! ### The check byte (R176) -/

theorem crcByte_self (r : Byte) : crcByte r r = 0 := by
  rw [crcByte, BitVec.xor_self]
  decide

/-- The check byte is a remainder: the register is 0 after the bytes it covers and the check byte itself. -/
theorem crc8_append_self (bytes : List Byte) : crc8 (bytes ++ [crc8 bytes]) = 0 := by
  rw [crc8, List.foldl_append]
  exact crcByte_self _

end Sys2Proof.Machine
end

section
/-! PROOFS. The frame receiver (R175 to R178): each character, the framing errors, the check of a complete frame, and a whole
frame byte by byte. -/

namespace Sys2Proof.Machine

theorem exec_receiveByte {s : State} (b : Byte) (awake : s.inReset = false) :
    exec (.receiveByte b true) s = .next (s.takeByte b) := unlessReset_on (State.takeByte b) s awake

theorem exec_brokenByte {s : State} (b : Byte) (awake : s.inReset = false) :
    exec (.receiveByte b false) s = .next s.brokenByte := unlessReset_on State.brokenByte s awake

/-! ### A byte, by the receiver's state (R177) -/

section
variable (b : Byte) (s : State)

theorem State.takeByte_hunt (is : s.link.receiver = .hunt) :
    s.takeByte b = if b = 0xD5#8 then s.expectByte .length else s := by
  simp only [State.takeByte, is]

theorem State.takeByte_length (is : s.link.receiver = .length) :
    s.takeByte b = if b = 0 then s.framingError else s.expectByte (.body b.toNat []) := by
  simp only [State.takeByte, is]

theorem State.takeByte_body {len : Nat} {got : List Byte} (is : s.link.receiver = .body len got) : s.takeByte b
    = s.expectByte (if got.length + 1 < len then .body len (got ++ [b]) else .check len (got ++ [b])) := by
  simp only [State.takeByte, is, List.length_append, List.length_singleton]

theorem State.takeByte_check {len : Nat} {got : List Byte} (is : s.link.receiver = .check len got) :
    s.takeByte b = s.frameComplete len got b := by
  simp only [State.takeByte, is]

end

/-- A counter in its range is counted up to 65,535 (R182). -/
theorem State.framingError_eq (s : State) (range : s.link.framing ≤ 65535) : s.framingError = { s with link := { s.link with
    receiver := .hunt, interByte := none, framing := min 65535 (s.link.framing + 1)
    pendingSet := s.link.pendingSet ||| Notice.linkError.bit } } := by
  rw [← bump_eq_min _ range]
  rfl

theorem State.frameComplete_eq (len : Nat) (body : List Byte) (chk : Byte) (s : State) (range : s.link.badCheck ≤ 65535) :
    s.frameComplete len body chk = if crc8 (BitVec.ofNat 8 len :: body) = chk then s.hunt.offerBody body
      else { s with link := { s.link with
        receiver := .hunt, interByte := none, badCheck := min 65535 (s.link.badCheck + 1)
        pendingSet := s.link.pendingSet ||| Notice.linkError.bit } } := by
  rw [← bump_eq_min _ range]
  rfl

/-- A frame whose check byte agrees is offered to the queue, with the receiver in HUNT (R178). -/
theorem State.frameComplete_good {len : Nat} {body : List Byte} {chk : Byte} (s : State)
    (good : crc8 (BitVec.ofNat 8 len :: body) = chk) : s.frameComplete len body chk = s.hunt.offerBody body := if_pos good

/-- Settles O5: each character by the receiver's state, and the three framing errors. -/
theorem receiverFollowsTheFrame : Obligations.ReceiverFollowsTheFrame := by
  refine ⟨fun s b awake => ?_, fun s b awake => ?_⟩
  · rw [exec_receiveByte b awake, exec_brokenByte b awake]
    refine ⟨fun is => ?_, fun is filled => ?_, fun len got is => ?_, fun is => ?_⟩
    · rw [s.takeByte_hunt b is]
      rfl
    · rw [s.takeByte_length b is, if_neg filled]
      rfl
    · rw [s.takeByte_body b is]
      rfl
    · exact congrArg _ (if_pos is)
  · intro t range
    refine ⟨fun is => ?_, fun inside => ?_, fun due => ?_⟩
    · rw [exec_receiveByte 0 awake, s.takeByte_length 0 is, if_pos rfl, s.framingError_eq range]
    · rw [exec_brokenByte b awake, State.brokenByte, if_neg inside, s.framingError_eq range]
    · rw [show exec .interByteTimerExpiry s = .next s.takeInterByte from unlessReset_on State.takeInterByte s awake,
        State.takeInterByte, if_pos due, s.framingError_eq range]

/-- Settles O6: the check of a complete frame. -/
theorem completeFrameIsChecked : Obligations.CompleteFrameIsChecked := by
  intro s len body chk awake is range
  rw [exec_receiveByte chk awake, s.takeByte_check chk is, s.frameComplete_eq len body chk range]
  rfl

/-! ### A whole frame (R176 to R178) -/

/-- The bytes of a frame, as characters received whole. -/
def characters (bytes : List Byte) : List Instr := bytes.map fun b => .receiveByte b true

theorem runAll_characters (b : Byte) (bytes : List Byte) (s : State) (awake : s.inReset = false) :
    runAll (characters (b :: bytes)) s = runAll (characters bytes) (s.takeByte b) := by
  simp only [characters, List.map_cons, runAll, exec_receiveByte b awake]

/-- The rest of a frame whose LEN is its body's length, from any byte of its body on: the body is offered to the queue. -/
theorem runAll_body (got rest : List Byte) (s : State) (awake : s.inReset = false) (more : rest ≠ [])
    (is : s.link.receiver = .body (got ++ rest).length got) :
    runAll (characters (rest ++ [crc8 (BitVec.ofNat 8 (got ++ rest).length :: (got ++ rest))])) s
      = .next (s.hunt.offerBody (got ++ rest)) := by
  induction rest generalizing got s with
  | nil => exact absurd rfl more
  | cons b rest ih =>
    rw [List.cons_append, runAll_characters b _ s awake, s.takeByte_body b is]
    have joined : got ++ b :: rest = got ++ [b] ++ rest := by rw [List.append_assoc, List.singleton_append]
    rw [joined] at is ⊢
    have count : ((got ++ [b]) ++ rest).length = got.length + 1 + rest.length := by
      rw [List.length_append, List.length_append, List.length_singleton]
    cases rest with
    | nil =>
      rw [if_neg (by rw [count]; exact Nat.lt_irrefl _), List.append_nil, List.nil_append,
        runAll_characters _ [] (s.expectByte _) awake, State.takeByte_check _ _ rfl, State.frameComplete_good _ rfl]
      rfl
    | cons c rest =>
      rw [if_pos (by rw [count, List.length_cons]; omega)]
      exact ih (got ++ [b]) (s.expectByte (.body _ (got ++ [b]))) awake nofun rfl

/-- Settles O7: SOF and LEN begin the body, whose bytes are gathered one by one; and the check byte is a remainder. -/
theorem wholeFrameReachesTheQueue : Obligations.WholeFrameReachesTheQueue := by
  refine ⟨fun s body awake is filled short => ?_, crc8_append_self⟩
  have len : (BitVec.ofNat 8 body.length).toNat = body.length := by
    rw [BitVec.toNat_ofNat]
    omega
  have notZero : BitVec.ofNat 8 body.length ≠ 0 := fun zero => by
    rw [zero] at len
    exact absurd (len ▸ filled) (by decide)
  have more : body ≠ [] := List.ne_nil_of_length_pos filled
  let begun := s.expectByte .length
  let gathers := begun.expectByte (.body body.length [])
  calc runAll (characters (frame body)) s
      = runAll (characters (BitVec.ofNat 8 body.length :: (body ++ [crc8 (BitVec.ofNat 8 body.length :: body)]))) begun := by
        rw [frame, List.cons_append, runAll_characters _ _ s awake, s.takeByte_hunt _ is, if_pos rfl]
        rfl
    _ = runAll (characters (body ++ [crc8 (BitVec.ofNat 8 body.length :: body)])) gathers := by
        rw [runAll_characters _ _ begun awake, begun.takeByte_length _ rfl, if_neg notZero, len]
    _ = .next (gathers.hunt.offerBody body) := runAll_body [] body gathers awake more rfl
    _ = .next (State.offerBody body { s with link := { s.link with interByte := none } }) := by
        have hunts : gathers.hunt = { s with link := { s.link with receiver := .hunt, interByte := none } } := rfl
        rw [hunts, ← is]

end Sys2Proof.Machine
end

section
/-! PROOFS. Requests that are refused unread, that wait, or that are taken after a reply (R178 to R181, R195). -/

namespace Sys2Proof.Machine

/-! ### A frame offered to the queue (R179, R180) -/

/-- An IDLE dispatcher takes the oldest frame, which leaves the queue. -/
theorem State.pump_idle (body : List Byte) (rest : List (List Byte)) (s : State) (idle : s.link.dispatcher = .idle)
    (queue : s.link.queue = body :: rest) : s.pump = (s.onLink fun l => { l with queue := rest }).takeBody body := by
  simp only [State.pump, idle, queue]

theorem State.pump_empty (s : State) (empty : s.link.queue = []) : s.pump = s := by
  unfold State.pump
  split
  · rename_i queue
    exact absurd (empty.symm.trans queue) nofun
  · rfl

theorem State.pump_busy (s : State) (busy : s.link.dispatcher ≠ .idle) : s.pump = s := by
  unfold State.pump
  split
  · rename_i idle _
    exact absurd idle busy
  · rfl

theorem State.offerBody_busy (body : List Byte) (s : State) (busy : s.link.dispatcher ≠ .idle)
    (room : s.link.queue.length < 4) : s.offerBody body = s.onLink fun l => { l with queue := l.queue ++ [body] } :=
  (if_pos room).trans (State.pump_busy (s.onLink _) busy)

theorem State.offerBody_full (body : List Byte) (s : State) (full : s.link.queue.length = 4) :
    s.offerBody body = (s.onLink fun l => { l with overrun := bump l.overrun }).raise .linkError :=
  if_neg (by rw [full]; exact Nat.lt_irrefl 4)

/-- A frame that arrives at an IDLE dispatcher with nothing waiting is taken at once. -/
theorem State.offerBody_taking (body : List Byte) (s : State) (taking : s.taking) : s.offerBody body = s.takeBody body := by
  obtain ⟨-, idle, empty⟩ := taking
  let queued := s.onLink fun l => { l with queue := l.queue ++ [body] }
  have only : queued.link.queue = [body] := congrArg (· ++ [body]) empty
  have left : (queued.onLink fun l => { l with queue := [] }) = s := by
    rw [← empty]
    rfl
  rw [State.offerBody, if_pos (by rw [empty]; decide), State.pump_idle body [] queued idle only, left]

/-- A request command is the arrival of its request (notes/assumptions/3.md). -/
theorem exec_of_requestOf {c : Instr} {r : Request} (s : State) (request : requestOf c = some r) :
    exec c s = unlessReset (State.arrive r) s := by
  cases c <;> cases request <;> rfl

theorem State.arrive_busy (r : Request) (s : State) (busy : s.link.dispatcher ≠ .idle) :
    s.arrive r = s.offerBody r.body := if_neg fun free => busy free.1

/-- Settles O10: with the dispatcher not IDLE the body is appended, or is an overrun. -/
theorem requestsWaitOrOverrun : Obligations.RequestsWaitOrOverrun := by
  intro c r s request awake busy
  rw [exec_of_requestOf s request, unlessReset_on _ s awake, s.arrive_busy r busy]
  refine ⟨fun room => ?_, fun full range => ?_⟩
  · rw [s.offerBody_busy r.body busy room]
    rfl
  · rw [s.offerBody_full r.body full, ← bump_eq_min _ range]
    rfl

/-! ### The end of a reply (R180) -/

theorem State.takeBody_body (r : Request) (s : State) (length : r.lengthOk = true) :
    s.takeBody r.body = s.takeRequest r := by
  rw [State.takeBody, parseBody_body r length]

theorem exec_replySent {s : State} {reply : Reply} (pins : Pins) (awake : s.inReset = false)
    (sending : s.link.dispatcher = .sending reply false) :
    exec (.replySent pins) s = .next (s.onLink fun l => { l with dispatcher := .idle }).pump := by
  refine (unlessReset_on (State.replySent pins) s awake).trans (congrArg _ ?_)
  simp only [State.replySent, sending]

/-- Settles O11: the freed dispatcher is IDLE, or takes the oldest frame. -/
theorem repliesTakeTheNextFrame : Obligations.RepliesTakeTheNextFrame := by
  intro s pins reply awake sending
  rw [exec_replySent pins awake sending]
  let freed := s.onLink fun l => { l with dispatcher := .idle }
  have takes (r : Request) (rest : List (List Byte)) (length : r.lengthOk = true) (queue : s.link.queue = r.body :: rest) :
      freed.pump = State.takeRequest r { s with link := { s.link with dispatcher := .idle, queue := rest } } := by
    rw [State.pump_idle r.body rest freed rfl queue, State.takeBody_body r _ length]
    rfl
  refine ⟨fun empty => ?_, fun r rest length queue => congrArg _ (takes r rest length queue),
    fun c r request length queue => ?_⟩
  · rw [State.pump_empty freed empty]
    rfl
  · let taken : State := { s with link := { s.link with dispatcher := .idle, queue := [] } }
    rw [exec_of_requestOf taken request, unlessReset_on _ taken awake, State.arrive, if_pos ⟨rfl, rfl⟩]
    exact congrArg _ (takes r [] length queue)

/-! ### UNKNOWN_KIND and BAD_LENGTH (R181, R195) -/

theorem State.takeBody_unknown {kind : Byte} (payload : List Byte) (s : State) (unknown : isKind kind = false) :
    s.takeBody (kind :: payload) = s.replying kind .unknownKind [] := by
  rw [State.takeBody, parseBody_unknown payload unknown]
  rfl

theorem State.takeBody_badLength {kind : Byte} {payload : List Byte} (s : State) (known : isKind kind = true)
    (none' : ∀ r : Request, r.lengthOk = true → r.body ≠ kind :: payload) :
    s.takeBody (kind :: payload) = s.replying kind .badLength [] := by
  rw [State.takeBody, parseBody_badLength known none']
  rfl

theorem exec_unknownKind {s : State} {kind : Byte} (payload : List Byte) (taking : s.taking)
    (unknown : isKind kind = false) : exec (.unknownKind kind payload) s = .next (s.replying kind .unknownKind []) := by
  obtain ⟨awake, idle, empty⟩ := taking
  refine (unlessReset_on (State.arriveBody kind payload) s awake).trans (congrArg _ ?_)
  rw [State.arriveBody, if_pos ⟨idle, empty⟩, s.takeBody_unknown payload unknown]

/-- A request whose entries are not as many as its count says is refused unserved. -/
theorem unlessReset_arrive_badLength (r : Request) (s : State) (taking : s.taking) (length : r.lengthOk = false) :
    unlessReset (State.arrive r) s = .next (s.replying r.kind .badLength []) := by
  obtain ⟨awake, idle, empty⟩ := taking
  rw [unlessReset_on _ s awake, State.arrive, if_pos ⟨idle, empty⟩, State.takeRequest, length]
  rfl

/-- The last byte of a good frame, at a dispatcher that can take it: its body is taken at once. -/
theorem exec_lastByte {s : State} {len : Nat} {body : List Byte} {chk : Byte} (taking : s.taking)
    (is : s.link.receiver = .check len body) (good : crc8 (BitVec.ofNat 8 len :: body) = chk) :
    exec (.receiveByte chk true) s = .next (s.hunt.takeBody body) := by
  rw [exec_receiveByte chk taking.1, s.takeByte_check chk is, s.frameComplete_good good,
    State.offerBody_taking body s.hunt taking]

/-- Settles O9: the kind and the length are examined before any block sees the request. -/
theorem badKindsAndLengthsAreRefused : Obligations.BadKindsAndLengthsAreRefused := by
  refine ⟨⟨fun s kind payload taking unknown => exec_unknownKind payload taking unknown, isKind_iff_exists,
      fun kind high => isKind_high high⟩,
    ⟨fun s first count entries taking bad => ?_, fun s start count records taking bad => ?_⟩,
    fun s kind chk payload taking is good => ?_⟩
  · exact unlessReset_arrive_badLength (.setRegulation first count entries) s taking (decide_eq_false bad)
  · exact unlessReset_arrive_badLength (.writePassage start count records) s taking (decide_eq_false bad)
  · intro t
    rw [exec_lastByte taking is good]
    exact ⟨fun unknown => congrArg _ (s.hunt.takeBody_unknown payload unknown),
      fun known none' => congrArg _ (s.hunt.takeBody_badLength known none')⟩

end Sys2Proof.Machine
end

section
/-! PROOFS. The notices (R148, R183 to R185): which are pending, the requests on the set, and the attention output. -/

namespace Sys2Proof.Machine

/-! ### The pending notices (R148, R183) -/

theorem Notice.code_lt (n : Notice) : n.code < 11 := by
  cases n <;> decide

/-- RECORD_READY is pending by the record blocks, every other notice by its flag. -/
theorem State.isPending_eq (n : Notice) (s : State) :
    s.isPending n = if n = .recordReady then s.recorder.anyReady else s.link.pendingSet.getLsbD n.code := by
  have ready : (if s.recorder.anyReady then Notice.recordReady.bit else 0).getLsbD n.code
      = (s.recorder.anyReady && decide (Notice.recordReady = n)) := by
    cases s.recorder.anyReady with
    | false => simp only [Bool.false_eq_true, if_false, Bool.false_and]; exact BitVec.getLsbD_zero
    | true => simp only [if_true, Bool.true_and, Notice.bit_get]
  rw [State.isPending, State.pendingNotices, BitVec.getLsbD_or, BitVec.getLsbD_and, BitVec.getLsbD_not, Notice.bit_get,
    ready]
  by_cases is : n = .recordReady
  · simp only [is, decide_true, Bool.not_true, Bool.and_false, Bool.false_or, Bool.and_true, if_true]
  · simp only [is, Ne.symm is, n.code_lt, decide_true, decide_false, Bool.not_false, Bool.and_true, Bool.and_false,
      Bool.or_false, if_false]

/-- Every bit of a set of notices is a notice's. -/
theorem exists_code_eq {i : Nat} (inside : i < 11) : ∃ n : Notice, n.code = i := by
  interval_cases i
  exacts [⟨.opDone, rfl⟩, ⟨.railDone, rfl⟩, ⟨.railGiveup, rfl⟩, ⟨.railFault, rfl⟩, ⟨.recordReady, rfl⟩, ⟨.recordLost, rfl⟩,
    ⟨.playEnd, rfl⟩, ⟨.playHalt, rfl⟩, ⟨.playWait, rfl⟩, ⟨.waveFault, rfl⟩, ⟨.linkError, rfl⟩]

theorem notices_ne_zero_iff (set : BitVec 11) : set ≠ 0 ↔ ∃ n : Notice, set.getLsbD n.code = true := by
  constructor
  · intro some'
    by_contra none'
    refine some' (BitVec.eq_of_getLsbD_eq fun i inside => ?_)
    obtain ⟨n, rfl⟩ := exists_code_eq inside
    exact (Bool.eq_false_iff.2 fun holds => none' ⟨n, holds⟩).trans BitVec.getLsbD_zero.symm
  · rintro ⟨n, holds⟩ rfl
    exact Bool.false_ne_true (BitVec.getLsbD_zero.symm.trans holds)

theorem State.attnLow_iff (s : State) :
    s.attnLow = true ↔ s.inReset = false ∧ ∃ n : Notice, s.isPending n = true ∧ s.isMasked n = false := by
  have bits (n : Notice) : (s.pendingNotices &&& ~~~s.link.maskSet).getLsbD n.code = true
      ↔ s.isPending n = true ∧ s.isMasked n = false := by
    rw [BitVec.getLsbD_and, BitVec.getLsbD_not, Bool.and_eq_true, decide_eq_true n.code_lt, Bool.true_and, Bool.not_eq_true']
    rfl
  rw [State.attnLow, Bool.and_eq_true, Bool.not_eq_true', bne_iff_ne, notices_ne_zero_iff]
  simp only [bits]

/-! ### The requests (R184) -/

theorem noticesOf_known {set : Half} (known : set.toNat < 2048) : noticesOf set = some (set.setWidth 11) := if_pos known

theorem noticesOf_unknown {set : Half} (unknown : 2048 ≤ set.toNat) : noticesOf set = none := if_neg (Nat.not_lt.2 unknown)

theorem setWidth_code (n : Notice) (set : Half) : (set.setWidth 11).getLsbD n.code = set.getLsbD n.code := by
  rw [BitVec.getLsbD_setWidth, decide_eq_true n.code_lt, Bool.true_and]

theorem exec_clearNotices (set : Half) (s : State) (taking : s.taking) :
    exec (.clearNotices set) s = .next (State.conclude 0x05#8 false (serveClearNotices set s)) :=
  unlessReset_arrive_taking (.clearNotices set) s taking rfl

theorem exec_setNoticeMask (set : Half) (s : State) (taking : s.taking) :
    exec (.setNoticeMask set) s = .next (State.conclude 0x06#8 false (serveSetNoticeMask set s)) :=
  unlessReset_arrive_taking (.setNoticeMask set) s taking rfl

/-- The named notices stop being pending, but for RECORD_READY (R148, R184). -/
theorem State.cleared_isPending (n : Notice) (set : Half) (s : State) :
    (s.onLink fun l => { l with pendingSet := l.pendingSet &&& ~~~set.setWidth 11 }).isPending n
      = (s.isPending n && (n = .recordReady || !set.getLsbD n.code)) := by
  rw [State.isPending_eq, State.isPending_eq, State.onLink_recorder, State.onLink_link]
  by_cases is : n = .recordReady
  · simp only [is, if_true, decide_true, Bool.true_or, Bool.and_true]
  · simp only [is, if_false, decide_false, Bool.false_or, BitVec.getLsbD_and, BitVec.getLsbD_not, setWidth_code, n.code_lt,
      decide_true, Bool.true_and]

/-- A raised notice is pending, and the others are as they were (R183). -/
theorem State.raise_isPending (n m : Notice) (s : State) (event : n ≠ .recordReady) :
    (s.raise n).isPending m = (decide (m = n) || s.isPending m) := by
  have kept : (s.raise n).recorder = s.recorder := rfl
  rw [State.isPending_eq, State.isPending_eq, kept, State.raise_pendingSet, BitVec.getLsbD_or, Notice.bit_get]
  by_cases is : m = .recordReady
  · rw [if_pos is, if_pos is, is, decide_eq_false event.symm, Bool.false_or]
  · rw [if_neg is, if_neg is, Bool.or_comm, decide_eq_decide.2 eq_comm]

/-- Settles O12: the three requests, the attention output, and the two ways a notice becomes pending. -/
theorem noticeRequestsActOnTheSet : Obligations.NoticeRequestsActOnTheSet := by
  refine ⟨fun s set taking => ?_, State.attnLow_iff, fun s => (s.isPending_eq .recordReady).trans (if_pos rfl),
    fun s n m event => s.raise_isPending n m event⟩
  rw [exec_clearNotices set s taking, exec_setNoticeMask set s taking, serveClearNotices, serveSetNoticeMask]
  refine ⟨unlessReset_arrive_taking .readNotices s taking rfl, fun unknown => ?_, fun known => ?_⟩
  · rw [noticesOf_unknown unknown]
    exact ⟨rfl, rfl⟩
  · rw [noticesOf_known known]
    exact ⟨⟨_, rfl, rfl, rfl, fun n => s.cleared_isPending n set⟩, ⟨_, rfl, rfl, rfl, fun n => setWidth_code n set⟩⟩

end Sys2Proof.Machine
end

section
/-! PROOFS. The readings (R24, R29, R36, R54, R80, R106, R123, R134, R153, R174, R191, R192): each returns its bytes, those
of a run when the run passes its check. -/

namespace Sys2Proof.Machine

/-- A reading of a run: its bytes when the run passes its check, and BAD_VALUE otherwise. -/
theorem reading_of_run (r : Request) {s : State} {payload : List Byte} {least most size first count : Nat} {inside : Prop}
    [Decidable inside] (taking : s.taking) (length : r.lengthOk = true) (stays : endsInReset r = false)
    (serves : serveRequest r s
      = if runOk least most size first count then .give payload s else .refuse .badValue s)
    (check : runOk least most size first count = true ↔ inside) : unlessReset (State.arrive r) s
      = .next (if inside then s.replying r.kind .ok payload else s.replying r.kind .badValue []) := by
  rw [unlessReset_arrive_taking r s taking length, serves, stays]
  by_cases passes : inside
  · rw [if_pos passes, if_pos (check.2 passes)]
    rfl
  · rw [if_neg passes, if_neg (mt check.1 passes)]
    rfl

theorem exec_getZone (start : Half) (count : Byte) {s : State} (taking : s.taking) : exec (.getZone start count) s
    = .next (if s.wave.load.isSome then s.replying 0x33#8 .busy []
        else if count.toNat ≤ 8 ∧ start.toNat + count.toNat ≤ s.wave.zones.length then
          s.replying 0x33#8 .ok (s.wave.zoneBytes start.toNat count.toNat)
        else s.replying 0x33#8 .badValue []) := by
  refine (unlessReset_arrive_taking (.getZone start count) s taking rfl).trans (congrArg _ ?_)
  rw [serveRequest, serveGetZone, State.loading]
  by_cases loads : s.wave.load.isSome = true
  · rw [if_pos loads, if_pos loads]
    rfl
  · rw [if_neg loads, if_neg loads]
    by_cases fits : count.toNat ≤ 8 ∧ start.toNat + count.toNat ≤ s.wave.zones.length
    · rw [if_pos fits, if_pos fits]
      rfl
    · rw [if_neg fits, if_neg fits]
      rfl

/-- Settles O13: the served reading of each, and the check of each run. -/
theorem readingsChangeNothing : Obligations.ReadingsChangeNothing := by
  refine ⟨fun s taking => ?_, fun s first count start taking => ?_⟩
  · exact ⟨unlessReset_arrive_taking .getIdentity s taking rfl, unlessReset_arrive_taking .getStatus s taking rfl,
      unlessReset_arrive_taking .getTouchCurve s taking rfl, unlessReset_arrive_taking .getPedalState s taking rfl,
      unlessReset_arrive_taking .getRailState s taking rfl, unlessReset_arrive_taking .getOutput s taking rfl,
      unlessReset_arrive_taking .getPlayStatus s taking rfl⟩
  · refine ⟨reading_of_run (.getKeyState first count) taking rfl rfl rfl ?_,
      reading_of_run (.getRegulation first count) taking rfl rfl rfl ?_,
      reading_of_run (.getVoiceState first count) taking rfl rfl rfl ?_, exec_getZone start count taking,
      reading_of_run (size := 8192) (.readPassage start count) taking rfl rfl rfl ?_⟩
    all_goals
      rw [runOk_iff]
      omega

end Sys2Proof.Machine
end

section
/-! PROOFS. The operation slot (R186, R189, R190): an operation begun or refused, aborted, and its result delivered. -/

namespace Sys2Proof.Machine

/-! ### START OPERATION (R186) -/

theorem exec_startOperation (code : Byte) (s : State) (taking : s.taking) :
    unlessReset (State.arrive (.startOperation code)) s = .next (State.conclude 0x07#8 false (serveStartOperation code s)) :=
  unlessReset_arrive_taking (.startOperation code) s taking rfl

theorem operationOf_unknown {code : Byte} (unknown : 4 ≤ code.toNat) : operationOf code = none := by
  unfold operationOf
  split
  case h_5 => rfl
  all_goals omega

theorem serveStartOperation_unknown {code : Byte} (s : State) (unknown : 4 ≤ code.toNat) :
    serveStartOperation code s = .refuse .badValue s := by
  simp only [serveStartOperation, operationOf_unknown unknown]

section
variable {code : Byte} {op : Operation} (s : State) (known : operationOf code = some op)
include known

theorem serveStartOperation_busy {other : Operation} (runs : s.link.slot = .running other) :
    serveStartOperation code s = .refuse .busy s := by
  simp only [serveStartOperation, known, runs]

theorem serveStartOperation_begins (free : ∀ other, s.link.slot ≠ .running other)
    (accepted : op = .railCalibrate → s.rail.state.refusesCalibrate = none) :
    serveStartOperation code s = .ok (s.startOperation op) := by
  unfold serveStartOperation
  rw [known]
  dsimp only
  split
  · rename_i runs
    exact absurd runs (free _)
  · split
    · rename_i refused
      exact absurd ((accepted rfl).symm.trans refused) nofun
    · rfl

end

/-- RAIL CALIBRATE is refused by the rail's own check while no operation runs (R73). -/
theorem serveStartOperation_refused {status : Status} (s : State) (free : ∀ other, s.link.slot ≠ .running other)
    (refused : s.rail.state.refusesCalibrate = some status) : serveStartOperation 3 s = .refuse status s := by
  unfold serveStartOperation
  rw [show operationOf 3 = some .railCalibrate from rfl, refused]
  dsimp only
  split
  · rename_i runs
    exact absurd runs (free _)
  · rfl

/-! ### A load begins (R104, R110, R119) -/

theorem mapTable_const {α β : Type} {n : Nat} (b : β) (t : Vector α n) : mapTable (fun _ => b) t = Vector.replicate n b :=
  Vector.ext fun i inside => by rw [mapTable_getElem, Vector.getElem_replicate]

/-- The voices of a part whose load begins: those in use freed, and no other changed. -/
def freedVoices (voices : Vector Voice 96) : Vector Voice 96 := mapTable (fun v => if v.inUse then v.freed else v) voices

theorem freedVoices_getElem (voices : Vector Voice 96) (i : VoiceIx) : (freedVoices voices)[i]
    = if voices[i].state = .free then voices[i] else { voices[i] with state := .free, primed := false, hold := .none } := by
  simp only [freedVoices, Fin.getElem_fin, mapTable_getElem, Voice.inUse, bne_iff_ne, ne_eq, ite_not]
  rfl

/-- The part with a load begun: its read on the port, or waiting for it. -/
def State.loadBegun (port : Option Transfer) (load : Load) (s : State) : State :=
  { s with
    voice := { s.voice with voices := freedVoices s.voice.voices }
    wave := { s.wave with zones := [], load := some load, buffers := Vector.replicate 96 Buffer.reset, port := port } }

theorem State.beginLoad_eq (s : State) : s.beginLoad = (s.loadBegun s.wave.port ⟨none, 0, 0, 0, true⟩).arbitrate := by
  simp only [State.beginLoad, State.freeAllVoices, mapTable_const, State.onVoice, State.onWave, State.loadBegun, freedVoices]

theorem State.beginLoad_free (s : State) (free : s.wave.port = none) :
    s.beginLoad = s.loadBegun (some (.loadRead 0 8 false)) ⟨none, 0, 0, 0, false⟩ := by
  rw [State.beginLoad_eq, State.arbitrate_load _ (s.loadBegun s.wave.port ⟨none, 0, 0, 0, true⟩) free rfl rfl]
  simp only [State.onWave, State.loadBegun, Load.nextRead]

theorem State.beginLoad_busy (p : Transfer) (s : State) (busy : s.wave.port = some p) :
    s.beginLoad = s.loadBegun s.wave.port ⟨none, 0, 0, 0, true⟩ := by
  rw [State.beginLoad_eq, State.arbitrate_busy p (s.loadBegun s.wave.port ⟨none, 0, 0, 0, true⟩) busy]

/-! ### A calibration begins (R63, R73, R74) -/

theorem State.quietGrant_waitClose (s : State) (quiet : s.scanner.quiet = true)
    (is : s.rail.state = .calibrating .waitClose) : s.quietGrant = s.onRail fun r =>
      { r with legStart := s.perfClock }.driving (.calibrating .closing) .closed r.moveDuty r.travelLimit := by
  simp only [State.quietGrant, quiet, is, if_true]

/-- The rail as a calibration begins, before the quiet indicator is read (R73). -/
def Rail.calibrationBegun (r : Rail) : Rail :=
  { r.rest (.calibrating .waitClose) with
    moveDuty := r.travelDuty, attempts := 0, origin := some .opened, target := .closed }

theorem State.beginCalibration_flying (s : State) (flying : s.scanner.quiet = false) :
    s.beginCalibration = s.onRail Rail.calibrationBegun := State.quietGrant_flying (s.onRail Rail.calibrationBegun) flying

theorem State.beginCalibration_quiet (s : State) (quiet : s.scanner.quiet = true) :
    s.beginCalibration = (s.onRail Rail.calibrationBegun).onRail fun r =>
      { r with legStart := s.perfClock }.driving (.calibrating .closing) .closed r.moveDuty r.travelLimit :=
  State.quietGrant_waitClose (s.onRail Rail.calibrationBegun) quiet rfl

/-- Settles O14: BUSY by the slot, the four operations begun, and RAIL CALIBRATE by the rail's state. -/
theorem operationsBegin : Obligations.OperationsBegin := by
  refine ⟨fun s taking => ⟨fun op runs => ?_, fun free => ⟨?_, fun c op which => ?_⟩⟩, fun s taking free => ?_,
    fun s code chk taking unknown is good => ?_⟩
  · have busy (code : Byte) (started : Operation) (known : operationOf code = some started) :
        unlessReset (State.arrive (.startOperation code)) s = .next (s.replying 0x07#8 .busy []) := by
      rw [exec_startOperation code s taking, serveStartOperation_busy s known runs]
      rfl
    exact ⟨busy 1 _ rfl, busy 2 _ rfl, busy 0 _ rfl, busy 3 _ rfl⟩
  · refine (exec_startOperation 2 s taking).trans ?_
    rw [serveStartOperation_begins s (op := .learnRest) rfl free nofun]
    rfl
  · have loads : exec c s = .next (State.replying 0x07#8 .ok [] (s.beginOperation op).beginLoad) := by
      rcases which with ⟨rfl, rfl⟩ | ⟨rfl, rfl⟩
      · refine (exec_startOperation 1 s taking).trans ?_
        rw [serveStartOperation_begins s (op := .loadZones) rfl free nofun]
        rfl
      · refine (exec_startOperation 0 s taking).trans ?_
        rw [serveStartOperation_begins s (op := .startup) rfl free nofun]
        rfl
    rw [loads]
    cases port : s.wave.port with
    | none =>
      rw [State.beginLoad_free (s.beginOperation op) port]
      exact ⟨_, _, _, rfl, freedVoices_getElem s.voice.voices, (if_pos rfl).mpr ⟨rfl, rfl⟩⟩
    | some p =>
      rw [State.beginLoad_busy p (s.beginOperation op) port]
      exact ⟨_, _, _, rfl, freedVoices_getElem s.voice.voices, (if_neg nofun).mpr ⟨port, rfl⟩⟩
  · have begins (opened : s.rail.state = .opened) :
        exec .railCalibrate s = .next (State.replying 0x07#8 .ok [] (s.beginOperation .railCalibrate).beginCalibration) := by
      refine (exec_startOperation 3 s taking).trans ?_
      rw [serveStartOperation_begins s (op := .railCalibrate) rfl free fun _ => by rw [opened]; rfl]
      rfl
    have refuses (status : Status) (refused : s.rail.state.refusesCalibrate = some status) :
        exec .railCalibrate s = .next (s.replying 0x07#8 status []) := by
      refine (exec_startOperation 3 s taking).trans ?_
      rw [serveStartOperation_refused s free refused]
      rfl
    refine ⟨fun opened flying => ?_, fun opened quiet => ?_, fun stopped => refuses _ ?_, fun moves => refuses _ ?_⟩
    · rw [begins opened, (s.beginOperation .railCalibrate).beginCalibration_flying flying]
      rfl
    · rw [begins opened, (s.beginOperation .railCalibrate).beginCalibration_quiet quiet]
      rfl
    · rcases stopped with is | ⟨reason, is⟩ <;> rw [is] <;> rfl
    · rcases moves with is | is | ⟨kind, is⟩ | ⟨phase, is⟩ | ⟨phase, is⟩ <;> rw [is] <;> rfl
  · have taken : s.hunt.takeBody [0x07#8, code] = s.hunt.takeRequest (.startOperation code) :=
      State.takeBody_body (.startOperation code) s.hunt rfl
    have served : s.hunt.takeRequest (.startOperation code)
        = State.conclude 0x07#8 false (serveStartOperation code s.hunt) := if_pos rfl
    rw [exec_lastByte taking is good, taken, served, serveStartOperation_unknown s.hunt unknown]
    rfl

/-! ### ABORT OPERATION (R22, R78, R112, R189) -/

theorem exec_abortOperation (s : State) (taking : s.taking) :
    exec .abortOperation s = .next (State.conclude 0x08#8 false (serveAbortOperation s)) :=
  unlessReset_arrive_taking .abortOperation s taking rfl

theorem serveAbortOperation_running {op : Operation} (s : State) (runs : s.link.slot = .running op) :
    serveAbortOperation s = .ok (s.abortOperation op) := by
  simp only [serveAbortOperation, runs]

theorem serveAbortOperation_free (s : State) (free : ∀ op, s.link.slot ≠ .running op) : serveAbortOperation s = .ok s := by
  unfold serveAbortOperation
  split
  · rename_i runs
    exact absurd runs (free _)
  · rfl

/-- An aborted load leaves the port its transfer, a load's read with its data to be discarded (R112). -/
theorem State.abortLoad_busy (p : Transfer) (s : State) (busy : s.wave.port = some p) : s.abortLoad = { s with
    wave := { s.wave with
      zones := [], load := none, summary := ⟨.aborted, none, 0, 0⟩, port := some p.discard } } := by
  have waits : s.wave.port.map Transfer.discard = some p.discard := congrArg (Option.map Transfer.discard) busy
  rw [State.abortLoad, State.arbitrate_busy p.discard _ waits, ← waits]
  rfl

/-- The running operation's owning block stops its work, and the slot holds the result (R189). -/
theorem exec_abortOperation_ends {op : Operation} {details : Details} {s t : State} (taking : s.taking)
    (runs : s.link.slot = .running op) (stops : s.abortOperation op = t.endOperation .aborted details)
    (same : t.link = s.link) : exec .abortOperation s = .next (State.replying 0x08#8 .ok [] { t with link := { s.link with
      slot := .finished op .aborted details, pendingSet := s.link.pendingSet ||| Notice.opDone.bit } }) := by
  rw [exec_abortOperation s taking, serveAbortOperation_running s runs, stops,
    State.endOperation_running op _ _ t (same ▸ runs), same]
  rfl

/-- Settles O15: the slot's operation, and the phase of a calibration, say what an abort stops. -/
theorem abortEndsTheOperation : Obligations.AbortEndsTheOperation := by
  intro s taking ended settled
  refine ⟨fun free => ?_, fun runs => ?_, fun runs noLoad => ?_, fun op p which runs busy => ?_, fun runs => ?_⟩
  · rw [exec_abortOperation s taking, serveAbortOperation_free s free]
    rfl
  · exact exec_abortOperation_ends (t := s.abortLearning) taking runs rfl rfl
  · have notLoading : s.loading = false := congrArg Option.isSome noLoad
    refine exec_abortOperation_ends (t := s.abortLearning) taking runs ?_ rfl
    simp only [State.abortOperation, notLoading, Bool.false_eq_true, if_false]
    rfl
  · have stops : s.abortOperation op = s.abortLoad.endOperation .aborted (.load s.abortLoad.wave.summary) := by
      rcases which with rfl | ⟨rfl, loading⟩
      · rfl
      · simp only [State.abortOperation, State.loading, loading, if_true]
    rw [s.abortLoad_busy p busy] at stops
    rw [exec_abortOperation_ends taking runs stops rfl]
    cases p <;> rfl
  · intro next
    have calibration (rail : Rail) (stops : s.abortCalibration = { s with rail := rail }) : next rail :=
      exec_abortOperation_ends taking runs (congrArg (State.endOperation .aborted .nothing) stops) rfl
    refine ⟨fun is => calibration _ ?_, fun is => calibration _ ?_, fun is flying => calibration _ ?_,
      fun is => calibration _ ?_⟩
    all_goals simp only [State.abortCalibration, is]
    case refine_3 => exact State.quietGrant_flying _ flying
    all_goals rfl

/-! ### GET OPERATION RESULT (R190) -/

theorem exec_getOperationResult (s : State) (taking : s.taking) :
    exec .getOperationResult s = .next (State.conclude 0x09#8 false (serveGetOperationResult s)) :=
  unlessReset_arrive_taking .getOperationResult s taking rfl

theorem serveClearNotices_slot (set : Half) (s : State) :
    (State.conclude 0x05#8 false (serveClearNotices set s)).link.slot = s.link.slot := by
  unfold serveClearNotices
  split <;> rfl

/-- Settles O16: the result goes with the request that returns it, and with none that only reads. -/
theorem resultIsDeliveredOnce : Obligations.ResultIsDeliveredOnce := by
  intro s taking
  rw [exec_getOperationResult s taking, serveGetOperationResult]
  refine ⟨fun op runs => ?_, fun empty => ?_, fun op outcome details finished => ⟨?_, ?_⟩,
    ⟨_, unlessReset_arrive_taking .getStatus s taking rfl, rfl⟩,
    fun set => ⟨_, exec_clearNotices set s taking, serveClearNotices_slot set s⟩⟩
  · rw [runs]
    rfl
  · rw [empty]
    rfl
  · rw [finished]
    rfl
  · refine ⟨_, exec_startOperation 2 s taking, ?_⟩
    rw [serveStartOperation_begins s (op := .learnRest) rfl (finished ▸ nofun) nofun]
    rfl

end Sys2Proof.Machine
end

section
/-! PROOFS. The part reset (R59, R193): held, ended with its stated values and the rail's entry to HOMING, and the
invariants in the state after it. -/

namespace Sys2Proof.Machine

/-! ### Entry to HOMING with the action not quiet (R58, R59) -/

/-- Where entry to HOMING leaves the rail while the action is not quiet, by the guard and the two switches, and the notice it
raises (R58, R59). -/
def Rail.homingOutcome (r : Rail) : RailState × BitVec 11 :=
  if r.guardLow then (.fault .guard, Notice.railFault.bit)
  else if r.switchOpen.on && r.switchClosed.on then (.fault .switchConflict, Notice.railFault.bit)
  else if r.switchOpen.on then (.opened, Notice.railDone.bit)
  else (.homing .waiting, 0)

theorem State.enterHoming_guard (s : State) (low : s.rail.guardLow = true) :
    s.enterHoming = (s.onRail fun r => r.homed.rest (.fault .guard)).raise .railFault :=
  (if_pos low).trans (State.railFaults_alone .guard (s.onRail Rail.homed) nofun nofun)

theorem State.enterHoming_flying (s : State) (flying : s.scanner.quiet = false) : s.enterHoming = { s with
    rail := { s.rail.homed with state := s.rail.homingOutcome.1 }
    link := { s.link with pendingSet := s.link.pendingSet ||| s.rail.homingOutcome.2 } } := by
  unfold Rail.homingOutcome
  split
  · rename_i low
    rw [s.enterHoming_guard low]
    rfl
  · rename_i released
    have released := Bool.eq_false_iff.2 released
    split
    · rename_i both
      obtain ⟨opened, closed⟩ := Bool.and_eq_true_iff.1 both
      rw [s.enterHoming_conflict released opened closed]
      rfl
    · rename_i single
      split
      · rename_i opened
        have closed := Bool.eq_false_iff.2 fun closed => single (Bool.and_eq_true_iff.2 ⟨opened, closed⟩)
        rw [s.enterHoming_open released opened closed]
        rfl
      · rename_i away
        have noNotice : s.link.pendingSet ||| (0 : BitVec 11) = s.link.pendingSet := BitVec.or_zero
        rw [s.enterHoming_away released (Bool.eq_false_iff.2 away), State.quietGrant_flying (s.onRail Rail.homed) flying,
          noNotice]
        rfl

/-! ### The state after a part reset (R1, R17, R193) -/

/-- The rail's outcome at the end of a reset, by the pins (R59). -/
def homingOf (pins : Pins) (guardLow : Bool) : RailState × BitVec 11 := (Rail.resetAt pins guardLow).homingOutcome

theorem State.partReset_eq (pins : Pins) (s : State) : s.partReset pins = { State.reset with
    draws := s.draws, pending := s.pending, scanner := Scanner.resetAt pins
    rail := { (Rail.resetAt pins s.rail.guardLow).homed with state := (homingOf pins s.rail.guardLow).1 }
    link := { Link.reset with pendingSet := Link.reset.pendingSet ||| (homingOf pins s.rail.guardLow).2 } } :=
  State.enterHoming_flying _ rfl

theorem exec_resetNHigh (pins : Pins) (s : State) (held : s.inReset = true) :
    exec (.resetNHigh pins) s = .next (s.partReset pins) := congrArg Host.Outcome.next (if_pos held)

theorem Scanner.resetAt_keys (pins : Pins) (k : Key) :
    (Scanner.resetAt pins).keys[k] = KeyRecord.resetAt (pins.g1.getLsbD k.val) (pins.g2.getLsbD k.val) := by
  simp only [Scanner.resetAt, Fin.getElem_fin, Vector.getElem_ofFn]

/-- A key is in flight when one of its gates reads ABOVE (R6, R17). -/
theorem Scanner.resetAt_flightCount (pins : Pins) : (Scanner.resetAt pins).flightCount
    = (allKeys.filter fun k => pins.g1.getLsbD k.val || pins.g2.getLsbD k.val).length := by
  have flies (g1 g2 : Bool) : ((KeyRecord.resetAt g1 g2).zone != .low) = (g1 || g2) := by
    cases g1 <;> cases g2 <;> rfl
  have counted : (Scanner.resetAt pins).flightCount = inFlight (Scanner.resetAt pins).keys := by
    simp only [Scanner.resetAt]
  simp only [counted, inFlight, Scanner.resetAt_keys, flies]

/-- Every buffer is empty after a part reset (R113). -/
theorem WaveUnit.reset_buffer (i : VoiceIx) : WaveUnit.reset.buffers[i] = ⟨[], 0, false, false, false⟩ := by
  simp only [WaveUnit.reset, Fin.getElem_fin, Vector.getElem_replicate, Buffer.reset]

/-- Entry to HOMING raises no notice but RAIL_FAULT or RAIL_DONE, which are events' (R148, R183). -/
theorem Rail.homingOutcome_notice (r : Rail) :
    (0 ||| r.homingOutcome.2) &&& ~~~Notice.recordReady.bit ||| 0 = r.homingOutcome.2 := by
  unfold Rail.homingOutcome
  split
  · decide
  · split
    · decide
    · split <;> decide

/-- With no block READY the pending notices are the event's alone (R148, R183). -/
theorem State.partReset_pendingNotices (pins : Pins) (s : State) :
    (s.partReset pins).pendingNotices = (homingOf pins s.rail.guardLow).2 := by
  refine Eq.trans ?_ (Rail.homingOutcome_notice (Rail.resetAt pins s.rail.guardLow))
  rw [State.partReset_eq]
  rfl

/-- Settles O4: the reset values with the pins' levels, and the rail's entry to HOMING. -/
theorem resetEndsWithStatedValues : Obligations.ResetEndsWithStatedValues := by
  refine ⟨fun s pins held => ⟨s.partReset pins, exec_resetNHigh pins s held, ?_⟩,
    fun s pins held => ⟨s.partReset pins, exec_resetNHigh pins s held, ?_⟩⟩
  · rw [State.partReset_eq]
    exact ⟨rfl, rfl, rfl, ⟨rfl, rfl, rfl, rfl, rfl, rfl, rfl, rfl, rfl⟩,
      ⟨rfl, rfl, rfl, rfl, rfl, Scanner.resetAt_flightCount pins⟩, Scanner.resetAt_keys pins, rfl, rfl, rfl, rfl, rfl, rfl,
      ⟨rfl, rfl, rfl, rfl, rfl, WaveUnit.reset_buffer⟩, rfl, rfl, rfl, rfl, rfl, rfl, rfl, rfl, rfl, rfl, rfl⟩
  · have state : (s.partReset pins).rail.state = (homingOf pins s.rail.guardLow).1 := by rw [State.partReset_eq]
    rw [state, State.partReset_pendingNotices]
    refine ⟨by rw [State.partReset_eq]; rfl, by rw [State.partReset_eq]; rfl, ?_⟩
    have outcome : homingOf pins s.rail.guardLow = if s.rail.guardLow then (.fault .guard, Notice.railFault.bit)
        else if pins.endOpen && pins.endClosed then (.fault .switchConflict, Notice.railFault.bit)
        else if pins.endOpen then (.opened, Notice.railDone.bit) else (.homing .waiting, 0) := rfl
    rw [outcome]
    cases s.rail.guardLow with
    | true => exact ⟨rfl, rfl⟩
    | false =>
      cases pins.endOpen with
      | false => exact ⟨rfl, rfl⟩
      | true => cases pins.endClosed <;> exact ⟨rfl, rfl⟩

/-! ### Held in reset, and RESET PART (R125, R175, R185, R193) -/

/-- A command that acts in a part not held in reset has no effect in one that is (R193). -/
theorem unlessReset_held (f : State → State) (s : State) (held : s.inReset = true) : unlessReset f s = .next s :=
  congrArg Host.Outcome.next (if_pos held)

theorem exec_audioFrame_held (s : State) (held : s.inReset = true) : exec .audioFrame s = .next s.silentFrame :=
  congrArg Host.Outcome.next (if_pos held)

/-- The reset that follows the reply to RESET PART is that of RESET_N, held for no time. -/
theorem exec_replySent_resets {s : State} {r : Reply} (pins : Pins) (awake : s.inReset = false)
    (sending : s.link.dispatcher = .sending r true) :
    exec (.replySent pins) s = exec (.resetNHigh pins) { s with inReset := true } := by
  refine (unlessReset_on (State.replySent pins) s awake).trans ?_
  rw [exec_resetNHigh pins { s with inReset := true } rfl]
  simp only [State.replySent, sending]
  rfl

/-- Settles O3: RESET_N held, and the reset after the reply of RESET PART. -/
theorem resetIsHeldAndReleased : Obligations.ResetIsHeldAndReleased := by
  refine ⟨fun s => ⟨s.heldInReset, rfl, rfl, rfl, rfl, rfl, rfl, fun byte stopHigh => ?_, ?_⟩,
    fun s taking => unlessReset_arrive_taking .resetPart s taking rfl, fun s pins r awake sending => ?_⟩
  · exact unlessReset_held _ s.heldInReset rfl
  · exact ⟨_, exec_audioFrame_held s.heldInReset rfl, rfl⟩
  · exact exec_replySent_resets pins awake sending

/-! ### The invariants after a part reset -/

theorem State.reset_railOk : State.reset.railOk := (State.railOk_iff _).2 ⟨Rail.reset_ok, fun _ low => nomatch low⟩

/-- Settles O60: each block's reset values meet its invariant. -/
theorem resetMeetsEveryInvariant : Obligations.ResetMeetsEveryInvariant :=
  ⟨Link.reset_ok, State.reset_railOk, Scanner.reset_ok, Recorder.reset_ok, Player.reset_ok⟩

end Sys2Proof.Machine
end

section
/-! PROOFS. The layout of the requests (11.3, R194, R195): their bytes and what these are read back to. -/

namespace Sys2Proof.Machine

/-- A body is read as a request exactly where its payload is read as one of its kind. -/
theorem parseBody_eq_request_iff (kind : Byte) (payload : List Byte) (r : Request) :
    parseBody (kind :: payload) = .request r ↔ parsePayload kind payload = some (some r) := by
  cases read : parsePayload kind payload with
  | none => simp only [parseBody, read, reduceCtorEq]
  | some parsed => cases parsed <;> simp only [parseBody, read, reduceCtorEq, Parsed.request.injEq, Option.some.injEq]

/-- A body that spells a request is that request's, with as many entries as its count says (R195). -/
theorem body_of_parseBody {body : List Byte} {r : Request} (read : parseBody body = .request r) :
    r.body = body ∧ r.lengthOk = true := by
  cases body with
  | nil => cases read
  | cons kind payload =>
    obtain ⟨code, bytes, length⟩ := payload_of_parsePayload ((parseBody_eq_request_iff kind payload r).1 read)
    exact ⟨congrArg₂ List.cons (BitVec.eq_of_toNat_eq code) bytes, length⟩

/-- Settles O8: the codec's two directions. -/
theorem requestsReadBackFromTheirBytes : Obligations.RequestsReadBackFromTheirBytes :=
  ⟨parseBody_body, fun _ _ => body_of_parseBody⟩

end Sys2Proof.Machine
end
